-- ==== Sys2Proof/Word.lean ====
section
/-! DEFINITION. The word types of KSE-BC (00_scope R11, R12). Bits are numbered from 0, the least significant. -/

namespace Sys2Proof

/-- A byte, bit 7 the most significant (00_scope R12). -/
abbrev Byte := BitVec 8

/-- A 32-bit value: a register, a host value, a command word (00_scope R11, 30_encoding R90). -/
abbrev Word := BitVec 32

/-- A 64-bit SipHash word (00_scope R11). Addition on it is modulo 2^64 (00_scope R13). -/
abbrev DWord := BitVec 64

end Sys2Proof
end

