-- ==== Sys2Proof/Machine/Bytes.lean ====
section
/-! DEFINITION. Bit fields and byte strings: a field's place in a word, the multi-byte conversions of 00_scope R14, the
byte orders of 20_memory R64 to R66, and the decimal rendering of numbers in names (40_engine R136). A byte string is a
list, byte 0 first (00_scope R12). -/

namespace Sys2Proof.Machine

/-- A field `v` placed with its bit 0 at bit `lo` of a 32-bit value whose other bits are 0 (00_scope R12). -/
def atBit {w : Nat} (v : BitVec w) (lo : Nat) : Word := v.setWidth 32 <<< lo

/-- `zeros(n)`: `n` zero bytes. -/
def zeros (n : Nat) : List Byte := List.replicate n 0#8

/-- The little-endian value of a byte string: the sum of `B[i] * 2^(8i)` (00_scope R14). -/
def leInt : List Byte → Nat
  | [] => 0
  | b :: bs => b.toNat + 256 * leInt bs

/-- `LE64` (00_scope R14). -/
def le64 (bs : List Byte) : DWord := BitVec.ofNat 64 (leInt bs)

/-- `toLE64`: byte `j` is bits `8j+7 : 8j` (00_scope R14, 43_siphash R221). -/
def toLe64 (x : DWord) : List Byte := (List.range 8).map fun j => x.extractLsb' (8 * j) 8

/-- The low `n` bytes of a host value, the byte at the access's offset first (20_memory R64, R65). -/
def wordBytes (n : Nat) (v : Word) : List Byte := (List.range n).map fun j => v.extractLsb' (8 * j) 8

/-- The host value of the bytes an access reads, the byte at the access's offset in bits 7:0 and the bits above the
access's width 0 (20_memory R65, assumption log 4). -/
def wordOfBytes (bs : List Byte) : Word := BitVec.ofNat 32 (leInt bs)

/-- `BEint`: the sum of `B[i] * 2^(8(n-1-i))` (00_scope R14). -/
def beInt (bs : List Byte) : Nat := bs.foldl (fun acc b => 256 * acc + b.toNat) 0

/-- `toBE_n(x)`: the `n` bytes whose `BEint` is `x mod 2^(8n)` (00_scope R14). -/
def toBe (n x : Nat) : List Byte := (List.range n).map fun i => BitVec.ofNat 8 (x / 256 ^ (n - 1 - i))

/-- The ASCII code of a decimal digit. -/
def digitByte (d : Nat) : Byte := BitVec.ofNat 8 (0x30 + d % 10)

/-- The decimal digits of `n` in front of `acc`, with at most `fuel` digits. -/
def decDigits : Nat → Nat → List Byte → List Byte
  | 0, _, acc => acc
  | fuel + 1, n, acc =>
    if n < 10 then digitByte n :: acc else decDigits fuel (n / 10) (digitByte n :: acc)

/-- `dec(n)`: `n` in decimal, ASCII, with no sign and no leading zero (40_engine R136). A number has at most `n + 1`
digits. -/
def dec (n : Nat) : List Byte := decDigits (n + 1) n []

end Sys2Proof.Machine
end

