-- ==== Sys2Proof/Syntax.lean ====
section
/-! DEFINITION. The instruction set of KSE-BC: its 31 commands (30_encoding R95), one constructor per row of
spec/opcode_table.json. The operands are the fields that 30_encoding R96 leaves free. -/

namespace Sys2Proof

/-- One command. `immA`, `immB` are the immediates IMM_A and IMM_B (30_encoding R93); `enc`, `kp`, `ivp` are the
flags ENC, KP and IVP (30_encoding R94). -/
inductive Instr where
  | cfbCfg (immA : Byte)
  | cfbInit (enc kp ivp : Bool)
  | cfbProc
  | cfbProcb
  | cfbFinal
  | cfbReset
  | cfbName
  | cfbUosz
  | cfbOsz
  | cfbAadb
  | cfbAadn
  | ctrCfg
  | ctrInit (enc kp ivp : Bool)
  | ctrProc
  | ctrProcb
  | ctrFinal
  | ctrReset
  | ctrName
  | ctrUosz
  | ctrOsz
  | ctrAadb
  | ctrAadn
  | sipCfg (immA immB : Byte)
  | sipInit (kp ivp : Bool)
  | sipUpdn
  | sipUpd
  | sipFin
  | sipReset
  | sipName
  | sipFin64
  | sipMacsz
  deriving DecidableEq, Repr

end Sys2Proof
end

