-- ==== Sys2Proof/WellFormed.lean ====
section
/-! DEFINITION. Which commands the assembler writes (30_encoding R102). The operand types of `Instr` already hold
exactly what the fields of a command word hold (30_encoding R96), so every term of `Instr` has an encoding; the one
check left is the assembler's on CFB.CFG. The machine gives every term a meaning, well formed or not: a CFB.CFG
with IMM_A = 0 decodes and fails when it executes (41_cfb R150). -/

namespace Sys2Proof

/-- The assembler's check of 30_encoding R102: it "refuses a `sbits` that is not a multiple of 8, and one outside
8..2040", so it writes no CFB.CFG whose IMM_A is 0. Every other operand is admitted (assumption log 8). -/
def Instr.wellFormed : Instr → Bool
  | .cfbCfg immA => immA != 0#8
  | .cfbInit _ _ _ => true
  | .cfbProc => true
  | .cfbProcb => true
  | .cfbFinal => true
  | .cfbReset => true
  | .cfbName => true
  | .cfbUosz => true
  | .cfbOsz => true
  | .cfbAadb => true
  | .cfbAadn => true
  | .ctrCfg => true
  | .ctrInit _ _ _ => true
  | .ctrProc => true
  | .ctrProcb => true
  | .ctrFinal => true
  | .ctrReset => true
  | .ctrName => true
  | .ctrUosz => true
  | .ctrOsz => true
  | .ctrAadb => true
  | .ctrAadn => true
  | .sipCfg _ _ => true
  | .sipInit _ _ => true
  | .sipUpdn => true
  | .sipUpd => true
  | .sipFin => true
  | .sipReset => true
  | .sipName => true
  | .sipFin64 => true
  | .sipMacsz => true

end Sys2Proof
end

