-- ==== Sys2Proof/Decode.lean ====
section
/-! DEFINITION. The decoder of 30_encoding R97 over the match and mask rows of R96, the names of the reasons a word
is illegal (R98), and the encoder over the field layout of R91. -/

namespace Sys2Proof

open Sys2Proof.Machine (atBit)

/-- Why a command word is illegal: the four bullets of 30_encoding R98. Whatever the reason, executing the word
ends with ERR_ILLEGAL; the machine does not record it. -/
inductive Illegal where
  /-- UNIT = 3. -/
  | reservedUnit
  /-- A reserved cell of the opcode map (30_encoding R95). -/
  | reservedOperation
  /-- A non-zero RSV field. -/
  | reservedBits
  /-- A non-zero ENC, KP, IVP, IMM_A or IMM_B where 30_encoding R96 does not free it. -/
  | constrainedField
  deriving DecidableEq, Repr

/-! ## The fields of the command word (30_encoding R91) -/

def fieldOp (w : Word) : BitVec 4 := w.extractLsb' 0 4
def fieldUnit (w : Word) : BitVec 2 := w.extractLsb' 4 2
def fieldEnc (w : Word) : Bool := w.getLsbD 6
def fieldKp (w : Word) : Bool := w.getLsbD 7
def fieldIvp (w : Word) : Bool := w.getLsbD 8
def fieldRsv (w : Word) : BitVec 7 := w.extractLsb' 9 7
def fieldImmA (w : Word) : Byte := w.extractLsb' 16 8
def fieldImmB (w : Word) : Byte := w.extractLsb' 24 8

/-- One row of the encoding table: a word encodes the command exactly when `w &&& mask = pat`, and `build` reads
its operands (30_encoding R96). -/
structure Row where
  mask : Word
  pat : Word
  build : Word → Instr

/-- The CFB rows of spec/opcode_table.json (30_encoding R96, R105). -/
def rowsCfb : List Row :=
  [⟨0xFF00FFFF#32, 0x00000000#32, fun w => .cfbCfg (fieldImmA w)⟩,
   ⟨0xFFFFFE3F#32, 0x00000001#32, fun w => .cfbInit (fieldEnc w) (fieldKp w) (fieldIvp w)⟩,
   ⟨0xFFFFFFFF#32, 0x00000002#32, fun _ => .cfbProc⟩,
   ⟨0xFFFFFFFF#32, 0x00000003#32, fun _ => .cfbProcb⟩,
   ⟨0xFFFFFFFF#32, 0x00000004#32, fun _ => .cfbFinal⟩,
   ⟨0xFFFFFFFF#32, 0x00000005#32, fun _ => .cfbReset⟩,
   ⟨0xFFFFFFFF#32, 0x00000006#32, fun _ => .cfbName⟩,
   ⟨0xFFFFFFFF#32, 0x00000007#32, fun _ => .cfbUosz⟩,
   ⟨0xFFFFFFFF#32, 0x00000008#32, fun _ => .cfbOsz⟩,
   ⟨0xFFFFFFFF#32, 0x00000009#32, fun _ => .cfbAadb⟩,
   ⟨0xFFFFFFFF#32, 0x0000000A#32, fun _ => .cfbAadn⟩]

/-- The CTR rows of spec/opcode_table.json (30_encoding R96, R105). -/
def rowsCtr : List Row :=
  [⟨0xFFFFFFFF#32, 0x00000010#32, fun _ => .ctrCfg⟩,
   ⟨0xFFFFFE3F#32, 0x00000011#32, fun w => .ctrInit (fieldEnc w) (fieldKp w) (fieldIvp w)⟩,
   ⟨0xFFFFFFFF#32, 0x00000012#32, fun _ => .ctrProc⟩,
   ⟨0xFFFFFFFF#32, 0x00000013#32, fun _ => .ctrProcb⟩,
   ⟨0xFFFFFFFF#32, 0x00000014#32, fun _ => .ctrFinal⟩,
   ⟨0xFFFFFFFF#32, 0x00000015#32, fun _ => .ctrReset⟩,
   ⟨0xFFFFFFFF#32, 0x00000016#32, fun _ => .ctrName⟩,
   ⟨0xFFFFFFFF#32, 0x00000017#32, fun _ => .ctrUosz⟩,
   ⟨0xFFFFFFFF#32, 0x00000018#32, fun _ => .ctrOsz⟩,
   ⟨0xFFFFFFFF#32, 0x00000019#32, fun _ => .ctrAadb⟩,
   ⟨0xFFFFFFFF#32, 0x0000001A#32, fun _ => .ctrAadn⟩]

/-- The SIP rows of spec/opcode_table.json (30_encoding R96, R105). -/
def rowsSip : List Row :=
  [⟨0x0000FFFF#32, 0x00000020#32, fun w => .sipCfg (fieldImmA w) (fieldImmB w)⟩,
   ⟨0xFFFFFE7F#32, 0x00000021#32, fun w => .sipInit (fieldKp w) (fieldIvp w)⟩,
   ⟨0xFFFFFFFF#32, 0x00000022#32, fun _ => .sipUpdn⟩,
   ⟨0xFFFFFFFF#32, 0x00000023#32, fun _ => .sipUpd⟩,
   ⟨0xFFFFFFFF#32, 0x00000024#32, fun _ => .sipFin⟩,
   ⟨0xFFFFFFFF#32, 0x00000025#32, fun _ => .sipReset⟩,
   ⟨0xFFFFFFFF#32, 0x00000026#32, fun _ => .sipName⟩,
   ⟨0xFFFFFFFF#32, 0x0000002B#32, fun _ => .sipFin64⟩,
   ⟨0xFFFFFFFF#32, 0x0000002C#32, fun _ => .sipMacsz⟩]

/-- All 31 rows. -/
def rows : List Row := rowsCfb ++ rowsCtr ++ rowsSip

/-- The word's OP and UNIT name a reserved cell of the opcode map (30_encoding R95), for a UNIT other than 3. -/
def reservedCell (w : Word) : Bool :=
  if fieldUnit w = 2#2 then
    decide (7 ≤ (fieldOp w).toNat ∧ (fieldOp w).toNat ≤ 10 ∨ 13 ≤ (fieldOp w).toNat)
  else
    decide (11 ≤ (fieldOp w).toNat)

/-- The name under which a word that matches no row is rejected (30_encoding R98), the first bullet that holds. -/
def illegalReason (w : Word) : Illegal :=
  if fieldUnit w = 3#2 then .reservedUnit
  else if reservedCell w then .reservedOperation
  else if fieldRsv w ≠ 0#7 then .reservedBits
  else .constrainedField

/-- 30_encoding R97: the command of the row the word matches, or the reason it is illegal. Total on all 2^32 words,
and it depends on no state (30_encoding R101). -/
def decode (w : Word) : Except Illegal Instr :=
  match rows.find? (fun r => w &&& r.mask == r.pat) with
  | some r => .ok (r.build w)
  | none => .error (illegalReason w)

/-! ## The encoder -/

/-- The command word with the given fields at their places (30_encoding R91). RSV is 0. -/
def commandWord (immB immA : Byte) (ivp kp enc : Bool) (unit : BitVec 2) (op : BitVec 4) : Word :=
  atBit op 0 ||| atBit unit 4 ||| atBit (BitVec.ofBool enc) 6 ||| atBit (BitVec.ofBool kp) 7 |||
    atBit (BitVec.ofBool ivp) 8 ||| atBit immA 16 ||| atBit immB 24

/-- A command word in which every field but UNIT and OP is 0: `OP | UNIT << 4` (30_encoding R96). -/
def plainWord (unit : BitVec 2) (op : BitVec 4) : Word :=
  commandWord 0#8 0#8 false false false unit op

/-- The command word of a command (30_encoding R95 gives OP and UNIT, R91 their places). -/
def encode : Instr → Word
  | .cfbCfg immA => commandWord 0#8 immA false false false 0#2 0x0#4
  | .cfbInit enc kp ivp => commandWord 0#8 0#8 ivp kp enc 0#2 0x1#4
  | .cfbProc => plainWord 0#2 0x2#4
  | .cfbProcb => plainWord 0#2 0x3#4
  | .cfbFinal => plainWord 0#2 0x4#4
  | .cfbReset => plainWord 0#2 0x5#4
  | .cfbName => plainWord 0#2 0x6#4
  | .cfbUosz => plainWord 0#2 0x7#4
  | .cfbOsz => plainWord 0#2 0x8#4
  | .cfbAadb => plainWord 0#2 0x9#4
  | .cfbAadn => plainWord 0#2 0xA#4
  | .ctrCfg => plainWord 1#2 0x0#4
  | .ctrInit enc kp ivp => commandWord 0#8 0#8 ivp kp enc 1#2 0x1#4
  | .ctrProc => plainWord 1#2 0x2#4
  | .ctrProcb => plainWord 1#2 0x3#4
  | .ctrFinal => plainWord 1#2 0x4#4
  | .ctrReset => plainWord 1#2 0x5#4
  | .ctrName => plainWord 1#2 0x6#4
  | .ctrUosz => plainWord 1#2 0x7#4
  | .ctrOsz => plainWord 1#2 0x8#4
  | .ctrAadb => plainWord 1#2 0x9#4
  | .ctrAadn => plainWord 1#2 0xA#4
  | .sipCfg immA immB => commandWord immB immA false false false 2#2 0x0#4
  | .sipInit kp ivp => commandWord 0#8 0#8 ivp kp false 2#2 0x1#4
  | .sipUpdn => plainWord 2#2 0x2#4
  | .sipUpd => plainWord 2#2 0x3#4
  | .sipFin => plainWord 2#2 0x4#4
  | .sipReset => plainWord 2#2 0x5#4
  | .sipName => plainWord 2#2 0x6#4
  | .sipFin64 => plainWord 2#2 0xB#4
  | .sipMacsz => plainWord 2#2 0xC#4

/-- The command that a command word of `nbits` bits with the value `w` is. A command has one length, 32 bits
(30_encoding R90, R101): bits above a shorter `nbits` are 0, and a longer one is no command. -/
def decodeTableWord (nbits w : Nat) : Option Instr :=
  if 32 < nbits then none
  else
    match decode (BitVec.ofNat 32 (w % 2 ^ nbits)) with
    | .ok i => some i
    | .error _ => none

end Sys2Proof
end

