-- ==== Sys2Proof/Config.lean ====
section
/-! DEFINITION. What the spec leaves to the implementation: the parameters of 00_scope R7 to R10, the window base
of 20_memory R60 and the power-on contents of the buffers (10_state R31). Every one is an opaque constant with no
body, so that no proof can rest on a value of it (assumption log 1, 2, 5). -/

namespace Sys2Proof

/-- The parameters of the external block cipher, in a form in which every value is one the spec admits:
`P_B` is `blockIndex + 1`, so it is in 1..255 (00_scope R7);
byte `i` of `E(key, blk)` is `cipherByte key blk i`, so `E` always gives `P_B` bytes (00_scope R8);
`keyAccepted` is `P_KEY_OK` (00_scope R9);
`P_CIPHER_NAME` is `nameHead` followed by at most 239 bytes of `nameTail`, so it is an ASCII string of 1 to 240
bytes (00_scope R10). -/
structure Params where
  blockIndex : Fin 255
  cipherByte : List Byte → List Byte → Nat → Byte
  keyAccepted : List Byte → Bool
  nameHead : BitVec 7
  nameTail : List (BitVec 7)
  deriving Inhabited

/-- `P_B`, the block size of the external block cipher in bytes (00_scope R7). -/
def Params.P_B (P : Params) : Nat := P.blockIndex.val + 1

/-- The parameters this machine is built with (00_scope R7 to R10; 93 I1 to I4, treatment `parameter`). -/
opaque Config.params : Params

/-- The byte that a buffer address holds at power-on: unspecified, any value (10_state R31; 93 I5). -/
opaque Config.powerOnByte : Nat → Byte

/-- `P_BASE`, the platform address of offset 0 of the window (20_memory R60; 93 I6). -/
opaque Config.pBase : Nat

end Sys2Proof
end

