-- ==== Sys2Proof/Machine/Constants.lean ====
section
/-! DEFINITION. The fixed numbers of KSE-BC: the address map (20_memory R62), the register offsets (10_state R21), the
sizes (00_scope R11) and the SipHash constants (43_siphash R203). -/

namespace Sys2Proof.Machine

/-! ## Buffers (20_memory R62, 00_scope R11) -/

def KEY_BASE : Nat := 0x0100
def IV_BASE : Nat := 0x0200
def NAME_BASE : Nat := 0x0300
def IN_BASE : Nat := 0x1000
def OUT_BASE : Nat := 0x2000
/-- The size of IN_BUF and of OUT_BUF. -/
def P_BUF : Nat := 4096
/-- The size of KEY_BUF, the longest key an INIT takes (10_state R27). -/
def KEY_BUF_SIZE : Nat := 256
/-- The size of the window (20_memory R60). -/
def WINDOW_SIZE : Nat := 0x3000

/-! ## Registers (10_state R21) -/

def CMD : Nat := 0x000
def STATUS : Nat := 0x004
def RESULT0 : Nat := 0x008
def RESULT1 : Nat := 0x00C
def A_INOFF : Nat := 0x010
def A_LEN : Nat := 0x014
def A_OUTOFF : Nat := 0x018
def A_KEYLEN : Nat := 0x01C
def A_IVLEN : Nat := 0x020
def A_BYTE : Nat := 0x024
def CFGINFO : Nat := 0x028

/-- The areas of the address map, one per row of 20_memory R62. -/
inductive Area where
  | registers
  | reservedLow
  | keyBuf
  | ivBuf
  | nameBuf
  | reservedHigh
  | inBuf
  | outBuf
  deriving DecidableEq, Repr

/-- The area an offset lies in; none outside the window (20_memory R62, R69). -/
def areaOf (off : Nat) : Option Area :=
  if off < 0x002C then some .registers
  else if off < 0x0100 then some .reservedLow
  else if off < 0x0200 then some .keyBuf
  else if off < 0x0300 then some .ivBuf
  else if off < 0x0400 then some .nameBuf
  else if off < 0x1000 then some .reservedHigh
  else if off < 0x2000 then some .inBuf
  else if off < 0x3000 then some .outBuf
  else none

/-- The area is one of the five buffers (10_state R31). -/
def Area.isBuffer : Area → Bool
  | .registers => false
  | .reservedLow => false
  | .keyBuf => true
  | .ivBuf => true
  | .nameBuf => true
  | .reservedHigh => false
  | .inBuf => true
  | .outBuf => true

/-- The area is a buffer the host may write; writes to NAME_BUF are ignored (10_state R31). -/
def Area.hostWritable : Area → Bool
  | .registers => false
  | .reservedLow => false
  | .keyBuf => true
  | .ivBuf => true
  | .nameBuf => false
  | .reservedHigh => false
  | .inBuf => true
  | .outBuf => true

/-- The offset lies in one of the five buffers, the only places of the window that hold bytes. -/
def isBufferOffset (off : Nat) : Bool :=
  match areaOf off with
  | some a => a.isBuffer
  | none => false

/-! ## SipHash constants (43_siphash R203; the conflict is settled in 90_conflicts C1) -/

/-- "somepseu" -/
def C0 : DWord := 0x736f6d6570736575#64
/-- "dorandom" -/
def C1 : DWord := 0x646f72616e646f6d#64
/-- "lygenera" -/
def C2 : DWord := 0x6c7967656e657261#64
/-- "tedbytes" -/
def C3 : DWord := 0x7465646279746573#64

end Sys2Proof.Machine
end

