-- ==== Sys2Proof/Machine/State.lean ====
section
/-! DEFINITION. The state of KSE-BC (10_state), the faults and refusals, and the state after the power-on reset
(10_state R42). -/

namespace Sys2Proof.Machine

/-- The error codes of 60_exceptions R240. A closed type: "Codes 7 to 15 are never written". -/
inductive Err where
  | ok
  | invalidParameter
  | dataLength
  | outputLength
  | illegalState
  | illegal
  | unsupported
  deriving DecidableEq, Repr

/-- The buffers' bytes: (window offset, byte) pairs with strictly rising offsets. An unlisted offset has no value
here: nothing has written it since power-on, and a read of it gives the free byte of `Config.powerOnByte`
(assumption log 2). -/
abbrev Memory := List Host.Cell

/-- The CFB unit (10_state R32), every field under the spec's name. -/
structure Cfb where
  /-- segment size in bytes -/
  sB : Nat
  /-- 1 = encrypting -/
  enc : Bool
  keyed : Bool
  inited : Bool
  key : List Byte
  IV : List Byte
  /-- the shift register -/
  V : List Byte
  /-- the feedback buffer; only its first `cf` bytes are meaningful -/
  FB : List Byte
  cf : Nat
  /-- the current keystream block -/
  KB : List Byte
  /-- the keystream cursor; `P_B` means exhausted -/
  ko : Nat
  deriving DecidableEq, Repr

/-- The CTR unit (10_state R34). It keeps no direction flag. -/
structure Ctr where
  keyed : Bool
  inited : Bool
  key : List Byte
  IV : List Byte
  /-- the counter, a big-endian unsigned integer -/
  CTR : List Byte
  KB : List Byte
  ko : Nat
  deriving DecidableEq, Repr

/-- The SIP unit (10_state R36). -/
structure Sip where
  /-- compression rounds per word -/
  c : BitVec 8
  /-- finalization rounds -/
  d : BitVec 8
  inited : Bool
  k0 : DWord
  k1 : DWord
  v0 : DWord
  v1 : DWord
  v2 : DWord
  v3 : DWord
  /-- the buffered partial word -/
  m : DWord
  /-- bytes pending in `m` -/
  wp : Nat
  /-- words folded since the last reset, modulo 2^64 -/
  wc : DWord
  deriving DecidableEq, Repr

/-- One host access as the port delivers it (20_memory R67, 30_encoding R103): an offset from `P_BASE`, a width in
bytes and, for a write, the host value, of which an access of `n` bytes moves the low `8n` bits. The width is any
number, since the port may deliver a width that the block does not admit (20_memory R67). -/
inductive Access where
  | read (off width : Nat)
  | write (off width : Nat) (value : Word)
  deriving DecidableEq, Repr

/-- The state of KSE-BC. STATUS and CFGINFO are views of other fields (Flags.lean): each field of theirs has one home. -/
structure State where
  /-- STATUS.ERR (10_state R23) -/
  err : Err
  /-- RESULT0 (10_state R25) -/
  result0 : Word
  /-- RESULT1 (10_state R25) -/
  result1 : Word
  /-- A_INOFF (10_state R26) -/
  aInoff : Word
  /-- A_LEN (10_state R26) -/
  aLen : Word
  /-- A_OUTOFF (10_state R26) -/
  aOutoff : Word
  /-- A_KEYLEN (10_state R27) -/
  aKeylen : Word
  /-- A_IVLEN (10_state R27) -/
  aIvlen : Word
  /-- A_BYTE, bits 7:0; bits 31:8 read as 0 and ignore writes (10_state R28) -/
  aByte : Byte
  /-- KEY_BUF, IV_BUF, NAME_BUF, IN_BUF and OUT_BUF (10_state R31) -/
  mem : Memory
  cfb : Cfb
  ctr : Ctr
  sip : Sip
  /-- the model's own: the host accesses not yet performed, in port order (assumption log 3) -/
  port : List Access
  /-- the model's own: the values host reads have returned, oldest first (assumption log 4) -/
  readLog : List Word
  deriving DecidableEq, Repr

/-- How a step can stop with a fault. -/
inductive Fault where
  /-- A host access that 20_memory R67 does not admit (misaligned, of another width, or straddling two areas). Raised
  by the step that performs the access; nothing of KSE-BC changes and no data is returned (20_memory R68). Safe: "A
  model must treat a bus-error access as a fault of the host program". -/
  | busError
  deriving DecidableEq, Repr

/-- Why a step can be refused. -/
inductive Refusal where
  /-- An instruction whose meaning is not written yet. No arm of exec uses it. Safe. -/
  | notModelled (mnemonic : String)
  /-- A host access outside the window: "not an access to KSE-BC; the platform decides what it does" (20_memory R69;
  93 I9, treatment `refuse`). Raised by the step that would perform it. Safe. -/
  | outsideWindow
  deriving DecidableEq, Repr

/-! ## The power-on reset (10_state R42, 70_reset R270) -/

/-- The CFB unit at power-on (10_state R42). -/
def Cfb.powerOn (P : Params) : Cfb where
  sB := P.P_B
  enc := false
  keyed := false
  inited := false
  key := []
  IV := zeros P.P_B
  V := zeros P.P_B
  FB := zeros P.P_B
  cf := 0
  KB := zeros P.P_B
  ko := P.P_B

/-- The CTR unit at power-on (10_state R42). -/
def Ctr.powerOn (P : Params) : Ctr where
  keyed := false
  inited := false
  key := []
  IV := zeros P.P_B
  CTR := zeros P.P_B
  KB := zeros P.P_B
  ko := P.P_B

/-- The SIP unit at power-on (10_state R42). -/
def Sip.powerOn : Sip where
  c := 2#8
  d := 4#8
  inited := false
  k0 := 0#64
  k1 := 0#64
  v0 := C0
  v1 := C1
  v2 := C2
  v3 := C3
  m := 0#64
  wp := 0
  wc := 0#64

/-- The state after the power-on reset of a machine with the parameters `P` (10_state R42). The buffers' contents are
unspecified: no byte is listed. The host has asked for nothing yet. -/
def State.powerOn (P : Params) : State where
  err := .ok
  result0 := 0#32
  result1 := 0#32
  aInoff := 0#32
  aLen := 0#32
  aOutoff := 0#32
  aKeylen := 0#32
  aIvlen := 0#32
  aByte := 0#8
  mem := []
  cfb := Cfb.powerOn P
  ctr := Ctr.powerOn P
  sip := Sip.powerOn
  port := []
  readLog := []

/-- The machine right after reset (10_state R42, 70_reset R270). -/
def State.reset : State := State.powerOn Config.params

end Sys2Proof.Machine
end

