-- ==== Sys2Proof/Machine/Ops.lean ====
section
/-! DEFINITION. The named operations over memory and state: one byte and runs of bytes of the window (20_memory R61),
the two outcomes of a command (40_engine R121) with the raising of an error (60_exceptions R244), and the replacement
of one unit. There is no return from an error to model: KSE-BC takes no trap (60_exceptions R251, R252). -/

namespace Sys2Proof.Machine

/-! ## Memory -/

/-- The byte written at `x`, if one has been written since power-on. -/
def Memory.lookup : Memory → Nat → Option Byte
  | [], _ => none
  | (a, b) :: m, x => if x = a then some b else Memory.lookup m x

/-- Store the byte `v` at `x`, keeping the offsets strictly rising. -/
def Memory.store : Memory → Nat → Byte → Memory
  | [], x, v => [(x, v)]
  | (a, b) :: m, x, v =>
    if x < a then (x, v) :: (a, b) :: m
    else if x = a then (x, v) :: m
    else (a, b) :: Memory.store m x v

/-- The canonical form: offsets strictly rising, every one of them in a buffer. No entry equals what an unlisted
offset holds, because an unlisted offset holds no value. -/
abbrev Memory.wf (m : Memory) : Prop :=
  m.Pairwise (fun c d => c.1 < d.1) ∧ ∀ c ∈ m, isBufferOffset c.1 = true

/-- What a buffer byte reads as. A byte that nothing has written since power-on reads as its unspecified power-on
value (10_state R31, 70_reset R276; assumption log 2). -/
def Memory.read (m : Memory) (x : Nat) : Byte := (m.lookup x).getD (Config.powerOnByte x)

/-- `MemRead(addr, n)` over buffer bytes, byte `addr` first (20_memory R61). -/
def Memory.readBytes (m : Memory) (addr n : Nat) : List Byte :=
  (List.range n).map fun i => m.read (addr + i)

/-- `MemWrite(addr, |bs|, bs)` over buffer bytes, `bs[0]` at `addr` (20_memory R61). -/
def Memory.writeBytes : Memory → Nat → List Byte → Memory
  | m, _, [] => m
  | m, addr, b :: bs => Memory.writeBytes (m.store addr b) (addr + 1) bs

/-! ## State updates -/

def State.writeMem (s : State) (addr : Nat) (bs : List Byte) : State :=
  { s with mem := s.mem.writeBytes addr bs }

def State.setCfb (s : State) (u : Cfb) : State := { s with cfb := u }

def State.setCtr (s : State) (u : Ctr) : State := { s with ctr := u }

def State.setSip (s : State) (u : Sip) : State := { s with sip := u }

/-- `finish(r0, r1)`: the command ends successfully (00_scope R15, 40_engine R121). -/
def State.finish (s : State) (r0 r1 : Word) : State :=
  { s with err := .ok, result0 := r0, result1 := r1 }

/-- `raise Err(code)`: the command ends with an error, and nothing but STATUS.ERR, RESULT0 and RESULT1 changes
(60_exceptions R244). -/
def State.raise (s : State) (code : Err) : State :=
  { s with err := code, result0 := 0#32, result1 := 0#32 }

end Sys2Proof.Machine
end

