-- ==== Sys2Proof/Machine/Flags.lean ====
section
/-! DEFINITION. The two registers that show flags: STATUS (10_state R23) and CFGINFO (10_state R29), as views of the
state. KSE-BC has no arithmetic condition codes (10_state R39). -/

namespace Sys2Proof.Machine

/-- The number of an error code (60_exceptions R240). -/
def Err.code : Err → BitVec 4
  | .ok => 0#4
  | .invalidParameter => 1#4
  | .dataLength => 2#4
  | .outputLength => 3#4
  | .illegalState => 4#4
  | .illegal => 5#4
  | .unsupported => 6#4

/-- STATUS (10_state R23): ERR 3:0, CFB_INIT 4, CTR_INIT 5, SIP_INIT 6, BUSY 7, BLK 15:8, CFB_KEYED 16,
CTR_KEYED 17; BUSY is hardwired 0, BLK is hardwired to `P_B`, and the reserved bits 31:18 read as 0. -/
def State.status (P : Params) (s : State) : Word :=
  atBit s.err.code 0 ||| atBit (BitVec.ofBool s.cfb.inited) 4 ||| atBit (BitVec.ofBool s.ctr.inited) 5 |||
    atBit (BitVec.ofBool s.sip.inited) 6 ||| atBit (BitVec.ofNat 8 P.P_B) 8 |||
    atBit (BitVec.ofBool s.cfb.keyed) 16 ||| atBit (BitVec.ofBool s.ctr.keyed) 17

/-- CFGINFO (10_state R29): CFB_SEG 7:0, CFB_ENC 8, SIP_C 23:16, SIP_D 31:24; bits 15:9 read as 0. -/
def State.cfginfo (s : State) : Word :=
  atBit (BitVec.ofNat 8 s.cfb.sB) 0 ||| atBit (BitVec.ofBool s.cfb.enc) 8 ||| atBit s.sip.c 16 ||| atBit s.sip.d 24

end Sys2Proof.Machine
end

