-- ==== Sys2Proof/Machine/Bus.lean ====
section
/-! DEFINITION. Host accesses: which ones are admitted (20_memory R67), what a read returns (10_state R21, R30, R31;
20_memory R63 to R65) and what a write other than a CMD write does (20_memory R71). -/

namespace Sys2Proof.Machine

/-- The offset lies in the register area of 20_memory R67, 0x0000-0x00FF. -/
def inRegisterArea (off : Nat) : Bool := decide (off < 0x0100)

/-- The width and alignment that 20_memory R67 admits at `off`: aligned 32-bit accesses in the register area, aligned
8-, 16- and 32-bit accesses elsewhere. -/
def widthAdmitted (off width : Nat) : Bool :=
  if inRegisterArea off then decide (width = 4 ∧ off % 4 = 0)
  else decide (width = 1 ∨ (width = 2 ∧ off % 2 = 0) ∨ (width = 4 ∧ off % 4 = 0))

/-- The access lies within one area of the map of 20_memory R62. -/
def withinOneArea (off width : Nat) : Bool := decide (areaOf off = areaOf (off + width - 1))

/-- What becomes of a host access. -/
inductive Admission where
  /-- It is admitted (20_memory R67). -/
  | admitted
  /-- A bus error: misaligned, of another width, or straddling two areas (20_memory R67, R68). -/
  | busError
  /-- Not an access to KSE-BC (20_memory R69). -/
  | outside
  deriving DecidableEq, Repr

/-- The rule of 20_memory R67 and R69 for the access of `width` bytes at `off`. -/
def admission (off width : Nat) : Admission :=
  if WINDOW_SIZE ≤ off then .outside
  else if widthAdmitted off width && withinOneArea off width then .admitted
  else .busError

/-- `reg(NAME)`: the register at an offset of the register area (10_state R21). CMD and the reserved offsets read
as 0 (10_state R22, R30), and so do the bits 31:8 of A_BYTE (10_state R28). -/
def State.readReg (P : Params) (s : State) (off : Nat) : Word :=
  if off = STATUS then s.status P
  else if off = RESULT0 then s.result0
  else if off = RESULT1 then s.result1
  else if off = A_INOFF then s.aInoff
  else if off = A_LEN then s.aLen
  else if off = A_OUTOFF then s.aOutoff
  else if off = A_KEYLEN then s.aKeylen
  else if off = A_IVLEN then s.aIvlen
  else if off = A_BYTE then s.aByte.setWidth 32
  else if off = CFGINFO then s.cfginfo
  else 0#32

/-- A host write of `v` to a register other than CMD (10_state R21): the argument registers take it, A_BYTE its bits
7:0 (10_state R28); writes to the read-only registers and the reserved offsets are ignored (10_state R30). -/
def State.writeReg (s : State) (off : Nat) (v : Word) : State :=
  if off = A_INOFF then { s with aInoff := v }
  else if off = A_LEN then { s with aLen := v }
  else if off = A_OUTOFF then { s with aOutoff := v }
  else if off = A_KEYLEN then { s with aKeylen := v }
  else if off = A_IVLEN then { s with aIvlen := v }
  else if off = A_BYTE then { s with aByte := v.setWidth 8 }
  else s

/-- The byte a host read finds outside the register area: a buffer's byte, or 0 in the reserved range (20_memory R63,
10_state R31). -/
def State.windowByte (s : State) (off : Nat) : Byte :=
  if isBufferOffset off then s.mem.read off else 0#8

/-- The value an admitted host read of `width` bytes at `off` returns (20_memory R64, R65). It changes nothing
(20_memory R71). -/
def State.hostRead (P : Params) (s : State) (off width : Nat) : Word :=
  if inRegisterArea off then s.readReg P off
  else wordOfBytes ((List.range width).map fun i => s.windowByte (off + i))

/-- An admitted host write of `width` bytes at `off` that is not a CMD write: it "only stores its bytes, or is
ignored" (20_memory R71). NAME_BUF and the reserved range ignore it (10_state R30, R31). -/
def State.hostWrite (s : State) (off width : Nat) (v : Word) : State :=
  if inRegisterArea off then s.writeReg off v
  else
    match areaOf off with
    | some a => if a.hostWritable then s.writeMem off (wordBytes width v) else s
    | none => s

/-- The value of a host read joins the values the host has read (30_encoding R103; assumption log 4). -/
def State.record (s : State) (v : Word) : State := { s with readLog := s.readLog ++ [v] }

/-- The offset of a platform address at or above `P_BASE` (20_memory R60); none below it, where an access is not one
to KSE-BC (20_memory R69). The port delivers offsets, so the platform applies this first (assumption log 5). -/
def offsetOfPlatformAddress (a : Nat) : Option Nat :=
  if Config.pBase ≤ a then some (a - Config.pBase) else none

end Sys2Proof.Machine
end

