-- ==== Sys2Proof/Machine/Cipher.lean ====
section
/-! DEFINITION. What KSE-BC consumes of the external block cipher (00_scope R3, R8, R9, R10): only its encryption
function, its key-acceptance predicate and its name. -/

namespace Sys2Proof

/-- `E(key, blk)`: one encryption, `P_B` bytes (00_scope R8). -/
def Params.E (P : Params) (key blk : List Byte) : List Byte :=
  (List.range P.P_B).map fun i => P.cipherByte key blk i

/-- `P_KEY_OK(key)` (00_scope R9). -/
def Params.P_KEY_OK (P : Params) (key : List Byte) : Bool := P.keyAccepted key

/-- `P_CIPHER_NAME`: 1 to 240 ASCII bytes (00_scope R10). -/
def Params.P_CIPHER_NAME (P : Params) : List Byte :=
  (P.nameHead :: P.nameTail.take 239).map fun ch => ch.setWidth 8

end Sys2Proof
end

