-- ==== Sys2Proof/Machine/Operands.lean ====
section
/-! DEFINITION. The operands of the commands: the immediates (30_encoding R93), the argument registers (10_state R26 to
R28), the key and the IV of INIT (10_state R27) and the buffer range check (40_engine R123). -/

namespace Sys2Proof.Machine

/-- `zext(IMM)` (30_encoding R93). -/
abbrev immediate (imm : Byte) : Nat := imm.toNat

/-- `fits(off, n, size)`: the exact sum, with no wrap-around (40_engine R123). -/
def fits (off n size : Nat) : Bool := decide (off + n ≤ size)

/-- `reg(A_INOFF)`, the source's `inOff` (10_state R26). -/
abbrev State.inOff (s : State) : Nat := s.aInoff.toNat

/-- `reg(A_LEN)`, the source's `len` (10_state R26). -/
abbrev State.len (s : State) : Nat := s.aLen.toNat

/-- `reg(A_OUTOFF)`, the source's `outOff` (10_state R26). -/
abbrev State.outOff (s : State) : Nat := s.aOutoff.toNat

/-- `reg(A_KEYLEN)` (10_state R27). -/
abbrev State.keyLen (s : State) : Nat := s.aKeylen.toNat

/-- `reg(A_IVLEN)` (10_state R27). -/
abbrev State.ivLen (s : State) : Nat := s.aIvlen.toNat

/-- `[IN[inOff + i] for i in 0 .. len-1]` (40_engine R139). -/
def State.inputBytes (s : State) : List Byte := s.mem.readBytes (IN_BASE + s.inOff) s.len

/-- The key of an INIT: the first A_KEYLEN bytes of KEY_BUF (10_state R27, R31). -/
def State.keyOperand (s : State) : List Byte := s.mem.readBytes KEY_BASE s.keyLen

/-- The IV of an INIT: the first A_IVLEN bytes of IV_BUF (10_state R27, R31). -/
def State.ivOperand (s : State) : List Byte := s.mem.readBytes IV_BASE s.ivLen

/-- The key checks shared by CFB.INIT and CTR.INIT, in their order (41_cfb R152, 42_ctr R182): with KP = 1, the length
and then `P_KEY_OK`; with KP = 0, a key must have been accepted before. `none` when every check passes. -/
def keyCheck (P : Params) (kp keyed : Bool) (s : State) : Option Err :=
  if kp then
    if KEY_BUF_SIZE < s.keyLen then some .invalidParameter
    else if !P.P_KEY_OK s.keyOperand then some .invalidParameter
    else none
  else if !keyed then some .illegalState
  else none

end Sys2Proof.Machine
end

