-- ==== Sys2Proof/Machine/Engine.lean ====
section
/-! DEFINITION. The keystream engine that the CFB and CTR units share (40_engine R130, R131) and the command forms
built on it or shared by units: PROC (R139), PROCB (R140), FINAL (R141), NAME (R136), the size queries (R138) and the
AAD commands (R137). -/

namespace Sys2Proof.Machine

/-- What a unit gives the engine: its cursor `ko`, its key block `KB` and the two hooks (40_engine R130). -/
structure Hooks (U : Type) where
  ko : U → Nat
  setKo : U → Nat → U
  KB : U → List Byte
  /-- `generate(u)`: the next keystream block into `KB` -/
  generate : U → U
  /-- `feedback(u, xs, ys)`: receives a run, its input and its output bytes -/
  feedback : U → List Byte → List Byte → U

/-- `u.KB[u.ko]`. The cursor is below `P_B` wherever the engine reads (10_state R33, R35; assumption log 9). -/
def Hooks.keyByte {U : Type} (H : Hooks U) (u : U) : Byte := (H.KB u).getD (H.ko u) 0#8

/-- The loop of 40_engine R131 with the run `rx`, `ry` received since the last hook invocation: before a byte, if the
cursor is exhausted, flush the run, regenerate and set the cursor to 0; after the last byte, flush the final run. -/
def engineLoop {U : Type} (P : Params) (H : Hooks U) :
    U → List Byte → List Byte → List Byte → U × List Byte
  | u, rx, ry, [] => (H.feedback u rx ry, [])
  | u, rx, ry, x :: xs =>
    if H.ko u = P.P_B then
      let u := H.setKo (H.generate (H.feedback u rx ry)) 0
      let y := x ^^^ H.keyByte u
      let r := engineLoop P H (H.setKo u (H.ko u + 1)) [x] [y] xs
      (r.1, y :: r.2)
    else
      let y := x ^^^ H.keyByte u
      let r := engineLoop P H (H.setKo u (H.ko u + 1)) (rx ++ [x]) (ry ++ [y]) xs
      (r.1, y :: r.2)

/-- `engine(u, xs)` (40_engine R131): the unit after the input and the output bytes. -/
def engine {U : Type} (P : Params) (H : Hooks U) (u : U) (xs : List Byte) : U × List Byte :=
  engineLoop P H u [] [] xs

/-- A keystream unit as part of the state. -/
structure KeystreamUnit (U : Type) where
  hooks : Hooks U
  get : State → U
  set : State → U → State
  inited : U → Bool

/-- PROC (40_engine R139). -/
def proc {U : Type} (P : Params) (K : KeystreamUnit U) (s : State) : State :=
  if !K.inited (K.get s) then s.raise .illegalState
  else if !fits s.inOff s.len P_BUF then s.raise .dataLength
  else if !fits s.outOff s.len P_BUF then s.raise .outputLength
  else
    let r := engine P K.hooks (K.get s) s.inputBytes
    ((K.set s r.1).writeMem (OUT_BASE + s.outOff) r.2).finish s.aLen 0#32

/-- PROCB (40_engine R140): the engine on the one byte of A_BYTE, its output byte in RESULT0. -/
def procByte {U : Type} (P : Params) (K : KeystreamUnit U) (s : State) : State :=
  if !K.inited (K.get s) then s.raise .illegalState
  else
    let r := engine P K.hooks (K.get s) [s.aByte]
    (K.set s r.1).finish (BitVec.ofNat 32 (leInt r.2)) 0#32

/-- FINAL (40_engine R141): no byte produced, no unit state changed. -/
def finalCommand {U : Type} (K : KeystreamUnit U) (s : State) : State :=
  if !K.inited (K.get s) then s.raise .illegalState else s.finish 0#32 0#32

/-- NAME (40_engine R136): the name into NAME_BUF from its first byte, its length in RESULT0. -/
def nameCommand (str : List Byte) (s : State) : State :=
  (s.writeMem NAME_BASE str).finish (BitVec.ofNat 32 str.length) 0#32

/-- UOSZ and OSZ (40_engine R138). -/
def sizeQuery (s : State) : State := s.finish s.aLen 0#32

/-- AADB and AADN (40_engine R137). -/
def aadCommand (s : State) : State := s.raise .unsupported

end Sys2Proof.Machine
end

