-- ==== Sys2Proof/Machine/Cfb.lean ====
section
/-! DEFINITION. The CFB unit (41_cfb): its hooks and the meanings of its eleven commands. Each command is a function
of the parameters `P` and the state; the meaning exec calls takes the machine's own parameters. -/

namespace Sys2Proof.Machine

/-! ## Helper definitions (41_cfb §1) -/

/-- `pad(iv)`: zero bytes on the left up to `P_B` (41_cfb R151). -/
def padIv (P : Params) (iv : List Byte) : List Byte := zeros (P.P_B - iv.length) ++ iv

/-- `cfb_reset()` (41_cfb R154). -/
def Cfb.reset (P : Params) (u : Cfb) : Cfb :=
  { u with ko := P.P_B, V := u.IV, FB := zeros u.sB, cf := 0 }

/-- `generate(cfb)` (41_cfb R155): only the encrypt direction, whatever `enc` is (41_cfb R153). -/
def Cfb.generate (P : Params) (u : Cfb) : Cfb := { u with KB := P.E u.key u.V }

/-- `stage(b)` (41_cfb R157): the byte into the stage; a full segment is folded into the shift register. -/
def Cfb.stage (u : Cfb) (b : Byte) : Cfb :=
  let fb := u.FB.set u.cf b
  if u.cf + 1 = u.sB then
    { u with V := u.V.drop u.sB ++ fb.take u.sB, FB := zeros u.sB, cf := 0 }
  else
    { u with FB := fb, cf := u.cf + 1 }

/-- `feedback(cfb, xs, ys)` (41_cfb R156): the ciphertext of the run is staged, byte by byte. It is the output when
encrypting and the input when decrypting (90_conflicts C3). -/
def Cfb.feedback (u : Cfb) (xs ys : List Byte) : Cfb :=
  (if u.enc then ys else xs).foldl Cfb.stage u

def Cfb.hooks (P : Params) : Hooks Cfb where
  ko u := u.ko
  setKo u n := { u with ko := n }
  KB u := u.KB
  generate := Cfb.generate P
  feedback := Cfb.feedback

def cfbUnit (P : Params) : KeystreamUnit Cfb where
  hooks := Cfb.hooks P
  get s := s.cfb
  set := State.setCfb
  inited u := u.inited

/-- `name_of(cfb)`: the cipher's name, "/CFB" and the segment size in bits (41_cfb R163). -/
def Cfb.name (P : Params) (u : Cfb) : List Byte :=
  P.P_CIPHER_NAME ++ [0x2F#8, 0x43#8, 0x46#8, 0x42#8] ++ dec (8 * u.sB)

/-! ## Commands (41_cfb §2) -/

/-- CFB.CFG (41_cfb R150). -/
def cfbCfg (P : Params) (immA : Byte) (s : State) : State :=
  let sB := immediate immA
  if sB = 0 ∨ P.P_B < sB then s.raise .invalidParameter
  else (s.setCfb { Cfb.powerOn P with sB := sB, FB := zeros sB }).finish 0#32 0#32

/-- The CFB unit after a successful CFB.INIT (41_cfb R152, below the checks). -/
def Cfb.initialised (P : Params) (enc kp ivp : Bool) (key iv : List Byte) (u : Cfb) : Cfb :=
  Cfb.reset P
    { u with
      IV := if ivp then padIv P iv else u.IV
      key := if kp then key else u.key
      keyed := kp || u.keyed
      enc := enc
      inited := true }

/-- CFB.INIT (41_cfb R152). -/
def cfbInit (P : Params) (enc kp ivp : Bool) (s : State) : State :=
  if ivp && decide (P.P_B < s.ivLen) then s.raise .invalidParameter
  else
    match keyCheck P kp s.cfb.keyed s with
    | some code => s.raise code
    | none =>
      (s.setCfb (s.cfb.initialised P enc kp ivp s.keyOperand s.ivOperand)).finish 0#32 0#32

/-- CFB.CFG (41_cfb R150). -/
def execCfbCfg (immA : Byte) (s : State) : Host.Outcome State Fault Refusal :=
  .next (cfbCfg Config.params immA s)

/-- CFB.INIT (41_cfb R152). -/
def execCfbInit (enc kp ivp : Bool) (s : State) : Host.Outcome State Fault Refusal :=
  .next (cfbInit Config.params enc kp ivp s)

/-- CFB.PROC (41_cfb R159). -/
def execCfbProc (s : State) : Host.Outcome State Fault Refusal :=
  .next (proc Config.params (cfbUnit Config.params) s)

/-- CFB.PROCB (41_cfb R160). -/
def execCfbProcb (s : State) : Host.Outcome State Fault Refusal :=
  .next (procByte Config.params (cfbUnit Config.params) s)

/-- CFB.FINAL (41_cfb R161). -/
def execCfbFinal (s : State) : Host.Outcome State Fault Refusal :=
  .next (finalCommand (cfbUnit Config.params) s)

/-- CFB.RESET (41_cfb R162). -/
def execCfbReset (s : State) : Host.Outcome State Fault Refusal :=
  .next ((s.setCfb (s.cfb.reset Config.params)).finish 0#32 0#32)

/-- CFB.NAME (41_cfb R163). -/
def execCfbName (s : State) : Host.Outcome State Fault Refusal :=
  .next (nameCommand (s.cfb.name Config.params) s)

/-- CFB.UOSZ (41_cfb R164). -/
def execCfbUosz (s : State) : Host.Outcome State Fault Refusal := .next (sizeQuery s)

/-- CFB.OSZ (41_cfb R165). -/
def execCfbOsz (s : State) : Host.Outcome State Fault Refusal := .next (sizeQuery s)

/-- CFB.AADB (41_cfb R166). -/
def execCfbAadb (s : State) : Host.Outcome State Fault Refusal := .next (aadCommand s)

/-- CFB.AADN (41_cfb R166). -/
def execCfbAadn (s : State) : Host.Outcome State Fault Refusal := .next (aadCommand s)

end Sys2Proof.Machine
end

