-- ==== Sys2Proof/Machine/Ctr.lean ====
section
/-! DEFINITION. The CTR unit (42_ctr): its hooks and the meanings of its eleven commands. -/

namespace Sys2Proof.Machine

/-! ## Helper definitions (42_ctr §1) -/

/-- `inc(X)`: the successor of the big-endian value, modulo `2^(8*|X|)`; the wrap is silent (42_ctr R181). -/
def inc (X : List Byte) : List Byte := toBe X.length (beInt X + 1)

/-- `generate(ctr)`: encrypt the counter, then increment it (42_ctr R184); only the encrypt direction (R183). -/
def Ctr.generate (P : Params) (u : Ctr) : Ctr := { u with KB := P.E u.key u.CTR, CTR := inc u.CTR }

/-- `feedback(ctr, xs, ys)` does nothing (42_ctr R186). -/
def Ctr.feedback (u : Ctr) (_xs _ys : List Byte) : Ctr := u

/-- `ctr_reset()` (42_ctr R199). -/
def Ctr.reset (P : Params) (u : Ctr) : Ctr := { u with ko := P.P_B, CTR := u.IV }

def Ctr.hooks (P : Params) : Hooks Ctr where
  ko u := u.ko
  setKo u n := { u with ko := n }
  KB u := u.KB
  generate := Ctr.generate P
  feedback := Ctr.feedback

def ctrUnit (P : Params) : KeystreamUnit Ctr where
  hooks := Ctr.hooks P
  get s := s.ctr
  set := State.setCtr
  inited u := u.inited

/-- `name_of(ctr)`: the cipher's name and "/SIC" (42_ctr R191). -/
def Ctr.name (P : Params) : List Byte := P.P_CIPHER_NAME ++ [0x2F#8, 0x53#8, 0x49#8, 0x43#8]

/-! ## Commands (42_ctr §2) -/

/-- CTR.CFG (42_ctr R180). -/
def ctrCfg (P : Params) (s : State) : State := (s.setCtr (Ctr.powerOn P)).finish 0#32 0#32

/-- The CTR unit after a successful CTR.INIT (42_ctr R182, below the checks). -/
def Ctr.initialised (P : Params) (kp : Bool) (key iv : List Byte) (u : Ctr) : Ctr :=
  Ctr.reset P
    { u with
      IV := iv
      key := if kp then key else u.key
      keyed := kp || u.keyed
      inited := true }

/-- CTR.INIT (42_ctr R182). ENC is accepted and has no effect (42_ctr R183). -/
def ctrInit (P : Params) (_enc kp ivp : Bool) (s : State) : State :=
  if !ivp then s.raise .invalidParameter
  else if s.ivLen ≠ P.P_B then s.raise .invalidParameter
  else
    match keyCheck P kp s.ctr.keyed s with
    | some code => s.raise code
    | none =>
      (s.setCtr (s.ctr.initialised P kp s.keyOperand (s.mem.readBytes IV_BASE P.P_B))).finish 0#32 0#32

/-- CTR.CFG (42_ctr R180). -/
def execCtrCfg (s : State) : Host.Outcome State Fault Refusal := .next (ctrCfg Config.params s)

/-- CTR.INIT (42_ctr R182). -/
def execCtrInit (enc kp ivp : Bool) (s : State) : Host.Outcome State Fault Refusal :=
  .next (ctrInit Config.params enc kp ivp s)

/-- CTR.PROC (42_ctr R187). -/
def execCtrProc (s : State) : Host.Outcome State Fault Refusal :=
  .next (proc Config.params (ctrUnit Config.params) s)

/-- CTR.PROCB (42_ctr R188). -/
def execCtrProcb (s : State) : Host.Outcome State Fault Refusal :=
  .next (procByte Config.params (ctrUnit Config.params) s)

/-- CTR.FINAL (42_ctr R189). -/
def execCtrFinal (s : State) : Host.Outcome State Fault Refusal :=
  .next (finalCommand (ctrUnit Config.params) s)

/-- CTR.RESET (42_ctr R190). -/
def execCtrReset (s : State) : Host.Outcome State Fault Refusal :=
  .next ((s.setCtr (s.ctr.reset Config.params)).finish 0#32 0#32)

/-- CTR.NAME (42_ctr R191). -/
def execCtrName (s : State) : Host.Outcome State Fault Refusal :=
  .next (nameCommand (Ctr.name Config.params) s)

/-- CTR.UOSZ (42_ctr R192). -/
def execCtrUosz (s : State) : Host.Outcome State Fault Refusal := .next (sizeQuery s)

/-- CTR.OSZ (42_ctr R193). -/
def execCtrOsz (s : State) : Host.Outcome State Fault Refusal := .next (sizeQuery s)

/-- CTR.AADB (42_ctr R194). -/
def execCtrAadb (s : State) : Host.Outcome State Fault Refusal := .next (aadCommand s)

/-- CTR.AADN (42_ctr R194). -/
def execCtrAadn (s : State) : Host.Outcome State Fault Refusal := .next (aadCommand s)

end Sys2Proof.Machine
end

