-- ==== Sys2Proof/Machine/Sip.lean ====
section
/-! DEFINITION. The SIP unit (43_siphash): the word pipeline, the permutation, finalization and the meanings of its
nine commands. It uses no block cipher. All arithmetic is on 64-bit words (00_scope R13). -/

namespace Sys2Proof.Machine

/-- `rotl64(x, n)` for `0 < n < 64` (00_scope R13). -/
def rotl (x : DWord) (n : Nat) : DWord := (x <<< n) ||| (x >>> (64 - n))

/-- `sip_reset()` (43_siphash R204). -/
def Sip.reset (u : Sip) : Sip :=
  { u with
    v0 := u.k0 ^^^ C0
    v1 := u.k1 ^^^ C1
    v2 := u.k0 ^^^ C2
    v3 := u.k1 ^^^ C3
    m := 0#64
    wp := 0
    wc := 0#64 }

/-- `sipround()`, line by line (43_siphash R210); the rotation amounts are those of R211. -/
def Sip.round (u : Sip) : Sip :=
  let u := { u with v0 := u.v0 + u.v1, v2 := u.v2 + u.v3 }
  let u := { u with v1 := rotl u.v1 13, v3 := rotl u.v3 16 }
  let u := { u with v1 := u.v1 ^^^ u.v0, v3 := u.v3 ^^^ u.v2 }
  let u := { u with v0 := rotl u.v0 32 }
  let u := { u with v2 := u.v2 + u.v1, v0 := u.v0 + u.v3 }
  let u := { u with v1 := rotl u.v1 17, v3 := rotl u.v3 21 }
  let u := { u with v1 := u.v1 ^^^ u.v2, v3 := u.v3 ^^^ u.v0 }
  { u with v2 := rotl u.v2 32 }

/-- `sipround^n()` (43_siphash R212). -/
def Sip.rounds : Nat → Sip → Sip
  | 0, u => u
  | n + 1, u => Sip.rounds n u.round

/-- `fold(w)` (43_siphash R207). -/
def Sip.fold (u : Sip) (w : DWord) : Sip :=
  let u := { u with v3 := u.v3 ^^^ w }
  let u := Sip.rounds u.c.toNat u
  { u with v0 := u.v0 ^^^ w, wc := u.wc + 1#64 }

/-- `absorb(x)` (43_siphash R214). -/
def Sip.absorb (u : Sip) (x : Byte) : Sip :=
  let u := { u with m := (u.m >>> 8) ||| (x.setWidth 64 <<< 56), wp := u.wp + 1 }
  if u.wp = 8 then { u.fold u.m with wp := 0, m := 0#64 } else u

/-- The final word of finalization: the pending bytes aligned to bit 0, or 0 when there is none, with the byte count
modulo 256 in the top byte (43_siphash R213). -/
def Sip.finalWord (u : Sip) : DWord :=
  let mm := if u.wp = 0 then 0#64 else u.m >>> (8 * (8 - u.wp))
  let n := (8 * u.wc.toNat + u.wp) % 256
  mm ||| (BitVec.ofNat 64 n <<< 56)

/-- `finalize()`: the MAC and the unit after it, which is reset (43_siphash R213). -/
def Sip.finalize (u : Sip) : DWord × Sip :=
  let u := u.fold u.finalWord
  let u := { u with v2 := u.v2 ^^^ 0xFF#64 }
  let u := Sip.rounds u.d.toNat u
  (u.v0 ^^^ u.v1 ^^^ u.v2 ^^^ u.v3, u.reset)

/-- `name_of(sip)`: "SipHash-", `c`, "-", `d`, the numbers in decimal (43_siphash R223). -/
def Sip.name (u : Sip) : List Byte :=
  [0x53#8, 0x69#8, 0x70#8, 0x48#8, 0x61#8, 0x73#8, 0x68#8, 0x2D#8] ++ dec u.c.toNat ++ [0x2D#8] ++ dec u.d.toNat

/-! ## Commands (43_siphash §5) -/

/-- SIP.CFG (43_siphash R200): every `c`, `d` is accepted. -/
def sipCfg (immA immB : Byte) (s : State) : State :=
  (s.setSip { Sip.powerOn with c := immA, d := immB }).finish 0#32 0#32

/-- The SIP unit after a successful SIP.INIT with a key of 16 bytes (43_siphash R202, below the checks). -/
def Sip.initialised (key : List Byte) (u : Sip) : Sip :=
  Sip.reset { u with k0 := le64 (key.take 8), k1 := le64 (key.drop 8), inited := true }

/-- SIP.INIT (43_siphash R202). -/
def sipInit (kp ivp : Bool) (s : State) : State :=
  if !kp || ivp then s.raise .invalidParameter
  else if s.keyLen ≠ 16 then s.raise .invalidParameter
  else (s.setSip (s.sip.initialised (s.mem.readBytes KEY_BASE 16))).finish 0#32 0#32

/-- SIP.UPDN (43_siphash R209): a loop of `absorb` in increasing offset. -/
def sipUpdn (s : State) : State :=
  if !s.sip.inited then s.raise .illegalState
  else if !fits s.inOff s.len P_BUF then s.raise .dataLength
  else (s.setSip (s.inputBytes.foldl Sip.absorb s.sip)).finish 0#32 0#32

/-- SIP.UPD (43_siphash R208). -/
def sipUpd (s : State) : State :=
  if !s.sip.inited then s.raise .illegalState
  else (s.setSip (s.sip.absorb s.aByte)).finish 0#32 0#32

/-- SIP.FIN (43_siphash R221): the MAC little-endian into OUT_BUF. -/
def sipFin (s : State) : State :=
  if !s.sip.inited then s.raise .illegalState
  else if !fits s.outOff 8 P_BUF then s.raise .outputLength
  else
    let r := s.sip.finalize
    ((s.setSip r.2).writeMem (OUT_BASE + s.outOff) (toLe64 r.1)).finish 8#32 0#32

/-- SIP.FIN64 (43_siphash R220, R222): the MAC in RESULT0 (low half) and RESULT1 (high half). -/
def sipFin64 (s : State) : State :=
  if !s.sip.inited then s.raise .illegalState
  else
    let r := s.sip.finalize
    (s.setSip r.2).finish (r.1.extractLsb' 0 32) (r.1.extractLsb' 32 32)

/-- SIP.CFG (43_siphash R200). -/
def execSipCfg (immA immB : Byte) (s : State) : Host.Outcome State Fault Refusal := .next (sipCfg immA immB s)

/-- SIP.INIT (43_siphash R202). -/
def execSipInit (kp ivp : Bool) (s : State) : Host.Outcome State Fault Refusal := .next (sipInit kp ivp s)

/-- SIP.UPDN (43_siphash R209). -/
def execSipUpdn (s : State) : Host.Outcome State Fault Refusal := .next (sipUpdn s)

/-- SIP.UPD (43_siphash R208). -/
def execSipUpd (s : State) : Host.Outcome State Fault Refusal := .next (sipUpd s)

/-- SIP.FIN (43_siphash R221). -/
def execSipFin (s : State) : Host.Outcome State Fault Refusal := .next (sipFin s)

/-- SIP.RESET (43_siphash R205). -/
def execSipReset (s : State) : Host.Outcome State Fault Refusal :=
  .next ((s.setSip s.sip.reset).finish 0#32 0#32)

/-- SIP.NAME (43_siphash R223). -/
def execSipName (s : State) : Host.Outcome State Fault Refusal := .next (nameCommand s.sip.name s)

/-- SIP.FIN64 (43_siphash R220). -/
def execSipFin64 (s : State) : Host.Outcome State Fault Refusal := .next (sipFin64 s)

/-- SIP.MACSZ (43_siphash R224). -/
def execSipMacsz (s : State) : Host.Outcome State Fault Refusal := .next (s.finish 8#32 0#32)

end Sys2Proof.Machine
end

