-- ==== Sys2Proof/Machine/Dispatch.lean ====
section
/-! DEFINITION. The dispatch of 40_engine R120: each command to its meaning, one arm per constructor. -/

namespace Sys2Proof.Machine

def exec (i : Instr) (s : State) : Host.Outcome State Fault Refusal :=
  match i with
  | .cfbCfg immA => Sys2Proof.Machine.execCfbCfg immA s
  | .cfbInit enc kp ivp => Sys2Proof.Machine.execCfbInit enc kp ivp s
  | .cfbProc => Sys2Proof.Machine.execCfbProc s
  | .cfbProcb => Sys2Proof.Machine.execCfbProcb s
  | .cfbFinal => Sys2Proof.Machine.execCfbFinal s
  | .cfbReset => Sys2Proof.Machine.execCfbReset s
  | .cfbName => Sys2Proof.Machine.execCfbName s
  | .cfbUosz => Sys2Proof.Machine.execCfbUosz s
  | .cfbOsz => Sys2Proof.Machine.execCfbOsz s
  | .cfbAadb => Sys2Proof.Machine.execCfbAadb s
  | .cfbAadn => Sys2Proof.Machine.execCfbAadn s
  | .ctrCfg => Sys2Proof.Machine.execCtrCfg s
  | .ctrInit enc kp ivp => Sys2Proof.Machine.execCtrInit enc kp ivp s
  | .ctrProc => Sys2Proof.Machine.execCtrProc s
  | .ctrProcb => Sys2Proof.Machine.execCtrProcb s
  | .ctrFinal => Sys2Proof.Machine.execCtrFinal s
  | .ctrReset => Sys2Proof.Machine.execCtrReset s
  | .ctrName => Sys2Proof.Machine.execCtrName s
  | .ctrUosz => Sys2Proof.Machine.execCtrUosz s
  | .ctrOsz => Sys2Proof.Machine.execCtrOsz s
  | .ctrAadb => Sys2Proof.Machine.execCtrAadb s
  | .ctrAadn => Sys2Proof.Machine.execCtrAadn s
  | .sipCfg immA immB => Sys2Proof.Machine.execSipCfg immA immB s
  | .sipInit kp ivp => Sys2Proof.Machine.execSipInit kp ivp s
  | .sipUpdn => Sys2Proof.Machine.execSipUpdn s
  | .sipUpd => Sys2Proof.Machine.execSipUpd s
  | .sipFin => Sys2Proof.Machine.execSipFin s
  | .sipReset => Sys2Proof.Machine.execSipReset s
  | .sipName => Sys2Proof.Machine.execSipName s
  | .sipFin64 => Sys2Proof.Machine.execSipFin64 s
  | .sipMacsz => Sys2Proof.Machine.execSipMacsz s

end Sys2Proof.Machine
end

