-- ==== Sys2Proof/Machine/Port.lean ====
section
/-! DEFINITION. What the block does with a host access: a CMD write executes one command (40_engine R120), an access that is
not admitted stops (20_memory R68, R69), and the accesses of the port are performed one at a time in port order (20_memory
R74). -/

namespace Sys2Proof.Machine

/-- A 32-bit write of `w` to CMD (40_engine R120): the command `w` decodes to, or ERR_ILLEGAL. -/
def runCommand (w : Word) (s : State) : Host.Outcome State Fault Refusal :=
  match decode w with
  | .ok i => exec i s
  | .error _ => .next (s.raise .illegal)

/-- Performs one host access on a state whose port no longer holds it. -/
def perform (a : Access) (s : State) : Host.Outcome State Fault Refusal :=
  match a with
  | .read off width =>
    match admission off width with
    | .outside => .refused .outsideWindow
    | .busError => .fault .busError
    | .admitted => .next (s.record (s.hostRead Config.params off width))
  | .write off width v =>
    match admission off width with
    | .outside => .refused .outsideWindow
    | .busError => .fault .busError
    | .admitted => if off = CMD then runCommand v s else .next (s.hostWrite off width v)

/-- The first access of the port is performed. With no access the block waits and nothing changes (assumption log 3). -/
def servePort (s : State) : Host.Outcome State Fault Refusal :=
  match s.port with
  | [] => .next s
  | a :: rest => perform a { s with port := rest }

/-- The access that delivers the command word of `nbits` bits with the value `w`: a 32-bit write to CMD, every bit above
`nbits` 0 (30_encoding R90). -/
def commandWrite (nbits w : Nat) : Access := .write CMD 4 (BitVec.ofNat 32 (w % 2 ^ nbits))

end Sys2Proof.Machine
end

