-- ==== Sys2Proof/Machine/Step.lean ====
section
/-! DEFINITION. One step of KSE-BC: the next host access of the port is performed (20_memory R74). A CMD write executes
one command (40_engine R120). -/

namespace Sys2Proof.Machine

/-- One step: the first access of the port (20_memory R74). -/
def step (s : State) : Host.Outcome State Fault Refusal := servePort s

/-- The command word of `nbits` bits with the value `w` as the port's next access, in front of the accesses already
waiting. Nothing else changes. -/
def State.withFetchWord (s : State) (nbits w : Nat) : State :=
  { s with port := commandWrite nbits w :: s.port }

end Sys2Proof.Machine
end

