-- ==== Sys2Proof/Machine/Assembler.lean ====
section
/-! DEFINITION. The assembler of 30_encoding R102 to R104: the operands it accepts, the host-access syntax and the
expansions of the pseudo-instructions. A program is the list of host accesses its statements expand to. -/

namespace Sys2Proof.Machine

/-! ## Command syntax (30_encoding R102) -/

/-- `CFB.CFG <sbits>`: IMM_A = `sbits / 8`; refused when `sbits` is no multiple of 8 or outside 8..2040. -/
def asmCfbCfg (sbits : Nat) : Option Instr :=
  if sbits % 8 = 0 ∧ 8 ≤ sbits ∧ sbits ≤ 2040 then some (.cfbCfg (BitVec.ofNat 8 (sbits / 8))) else none

/-- `SIP.CFG <c>, <d>`: each 0..255. -/
def asmSipCfg (c d : Nat) : Option Instr :=
  if c ≤ 255 ∧ d ≤ 255 then some (.sipCfg (BitVec.ofNat 8 c) (BitVec.ofNat 8 d)) else none

/-! ## Host accesses and pseudo-instructions (30_encoding R103, R104) -/

/-- One statement of a program. `CHECK`'s stop is the host's own control flow: its expansion is the read. -/
inductive Stmt where
  | w32 (off : Nat) (v : Word)
  | w16 (off : Nat) (v : BitVec 16)
  | w8 (off : Nat) (v : Byte)
  | r32 (off : Nat)
  | r16 (off : Nat)
  | r8 (off : Nat)
  | wb (off : Nat) (bs : List Byte)
  | rb (off n : Nat)
  | cmd (i : Instr)
  | cfbEnc (key iv : Bool)
  | cfbDec (key iv : Bool)
  | ctrStart (key : Bool)
  | setIo (inoff len outoff : Word)
  | ldKey (bs : List Byte)
  | ldIv (bs : List Byte)
  | sipMac64 (inoff len : Word)
  | check
  deriving DecidableEq, Repr

/-- `WB`: `W8 off+i, b_i` in increasing `i` (30_encoding R103). -/
def expandBytes : Nat → List Byte → List Access
  | _, [] => []
  | off, b :: bs => .write off 1 (b.setWidth 32) :: expandBytes (off + 1) bs

/-- `CMD <command>`: `W32 0x000, <encoding of command>` (30_encoding R103). -/
def expandCmd (i : Instr) : Access := .write CMD 4 (encode i)

/-- The host accesses of a statement (30_encoding R103, R104). -/
def Stmt.expand : Stmt → List Access
  | .w32 off v => [.write off 4 v]
  | .w16 off v => [.write off 2 (v.setWidth 32)]
  | .w8 off v => [.write off 1 (v.setWidth 32)]
  | .r32 off => [.read off 4]
  | .r16 off => [.read off 2]
  | .r8 off => [.read off 1]
  | .wb off bs => expandBytes off bs
  | .rb off n => (List.range n).map fun i => .read (off + i) 1
  | .cmd i => [expandCmd i]
  | .cfbEnc key iv => [expandCmd (.cfbInit true key iv)]
  | .cfbDec key iv => [expandCmd (.cfbInit false key iv)]
  | .ctrStart key => [expandCmd (.ctrInit true key true)]
  | .setIo inoff len outoff => [.write A_INOFF 4 inoff, .write A_LEN 4 len, .write A_OUTOFF 4 outoff]
  | .ldKey bs => expandBytes KEY_BASE bs ++ [.write A_KEYLEN 4 (BitVec.ofNat 32 bs.length)]
  | .ldIv bs => expandBytes IV_BASE bs ++ [.write A_IVLEN 4 (BitVec.ofNat 32 bs.length)]
  | .sipMac64 inoff len =>
    [.write A_INOFF 4 inoff, .write A_LEN 4 len, expandCmd .sipUpdn, expandCmd .sipFin64]
  | .check => [.read STATUS 4]

/-- The accesses of a program, in program order (20_memory R75). -/
def assemble (p : List Stmt) : List Access := p.flatMap Stmt.expand

end Sys2Proof.Machine
end

