-- ==== Sys2Proof/Safety.lean ====
section
/-! DEFINITION. What a good state is: the invariants the spec states between commands (10_state R33, R35, R37) and the
facts about the units that every command keeps. -/

namespace Sys2Proof.Machine

/-- The CFB unit's invariants: those of 10_state R33, the ranges of R32, and what INIT and CFG give `keyed`. -/
structure Cfb.Inv (P : Params) (u : Cfb) : Prop where
  sB_pos : 1 ≤ u.sB
  sB_le : u.sB ≤ P.P_B
  ko_le : u.ko ≤ P.P_B
  cf_lt : u.cf < u.sB
  FB_length : u.FB.length = u.sB
  V_length : u.V.length = P.P_B
  IV_length : u.IV.length = P.P_B
  KB_length : u.KB.length = P.P_B
  key_length : u.key.length ≤ KEY_BUF_SIZE
  inited_keyed : u.inited = true → u.keyed = true
  keyed_ok : u.keyed = true → P.P_KEY_OK u.key = true
  unkeyed_empty : u.keyed = false → u.key = []

/-- The CTR unit's invariants: 10_state R35, the ranges of R34, and what INIT and CFG give `keyed`. -/
structure Ctr.Inv (P : Params) (u : Ctr) : Prop where
  ko_le : u.ko ≤ P.P_B
  IV_length : u.IV.length = P.P_B
  CTR_length : u.CTR.length = P.P_B
  KB_length : u.KB.length = P.P_B
  key_length : u.key.length ≤ KEY_BUF_SIZE
  inited_keyed : u.inited = true → u.keyed = true
  keyed_ok : u.keyed = true → P.P_KEY_OK u.key = true
  unkeyed_empty : u.keyed = false → u.key = []

/-- The SIP unit's invariants (10_state R37): fewer than eight bytes pending, and bits `63 - 8*wp : 0` of `m` are 0. -/
structure Sip.Inv (u : Sip) : Prop where
  wp_lt : u.wp < 8
  m_low_zero : u.m.toNat % 2 ^ (64 - 8 * u.wp) = 0

/-- The invariant of the machine: the three units' invariants and the canonical form of the memory. -/
structure State.Inv (P : Params) (s : State) : Prop where
  cfb : s.cfb.Inv P
  ctr : s.ctr.Inv P
  sip : s.sip.Inv
  mem : s.mem.wf

/-- A step that goes on: it performs its access, and neither faults nor is refused. -/
def goesOn (o : Host.Outcome State Fault Refusal) : Prop := ∃ t, o = .next t

end Sys2Proof.Machine
end

