-- ==== Sys2Proof/Certificates/Slice0/Obligations.lean ====
section
/-! DEFINITION. The statements for the provers. The namespace Claims holds what they are stated in: the spec's own
second formulations (the byte-serial step of 41_cfb R158, the closed forms of R168 and 42_ctr R185, SipHash as a
function of key and message), written from the spec and not over the engine they are compared with. -/

namespace Sys2Proof.Claims

open Sys2Proof.Machine

/-- `P_B` of the machine. -/
abbrev blockSize : Nat := Config.params.P_B

/-- The UNIT field of a command's word. -/
def unitOf (i : Instr) : BitVec 2 := fieldUnit (encode i)

/-! ## Illegal words, by the four bullets of 30_encoding R98 -/

/-- A reserved cell of the opcode map of 30_encoding R95, from its columns. -/
def IsReservedCell (unit op : Nat) : Prop :=
  (unit = 0 ∧ 11 ≤ op) ∨ (unit = 1 ∧ 11 ≤ op) ∨ (unit = 2 ∧ ((7 ≤ op ∧ op ≤ 10) ∨ 13 ≤ op))

/-- A non-zero ENC, KP, IVP, IMM_A or IMM_B where 30_encoding R96 does not free it: ENC is free in CFB.INIT and CTR.INIT,
KP and IVP in the three INITs, IMM_A in CFB.CFG and SIP.CFG, IMM_B in SIP.CFG. -/
def HasConstrainedField (w : Word) (unit op : Nat) : Prop :=
  (fieldEnc w = true ∧ ¬ (op = 1 ∧ unit ≠ 2)) ∨ (fieldKp w = true ∧ op ≠ 1) ∨ (fieldIvp w = true ∧ op ≠ 1) ∨
    (fieldImmA w ≠ 0#8 ∧ ¬ (op = 0 ∧ unit ≠ 1)) ∨ (fieldImmB w ≠ 0#8 ∧ ¬ (op = 0 ∧ unit = 2))

/-- The word is illegal by one of the four bullets of 30_encoding R98. -/
def IsIllegalWord (w : Word) : Prop :=
  let unit := (fieldUnit w).toNat
  let op := (fieldOp w).toNat
  unit = 3 ∨ IsReservedCell unit op ∨ fieldRsv w ≠ 0#7 ∨ HasConstrainedField w unit op

/-! ## Errors: the table of 60_exceptions R241 to R248 -/

/-- The range `off + n` leaves a 4096-byte buffer. -/
def leavesBuffer (off n : Nat) : Bool := decide (4096 < off + n)

/-- What an INIT with or without a key reports once its IV checks have passed. -/
def keyError (kp keyed : Bool) (s : State) : Err :=
  if kp then
    if 256 < s.aKeylen.toNat ∨ Config.params.P_KEY_OK (s.mem.readBytes 0x100 s.aKeylen.toNat) = false then .invalidParameter
    else .ok
  else if keyed then .ok
  else .illegalState

/-- What a PROC reports. -/
def procError (inited : Bool) (s : State) : Err :=
  if inited = false then .illegalState
  else if leavesBuffer s.aInoff.toNat s.aLen.toNat then .dataLength
  else if leavesBuffer s.aOutoff.toNat s.aLen.toNat then .outputLength
  else .ok

/-- What a command that only needs INIT reports. -/
def needsInit (inited : Bool) : Err := if inited then .ok else .illegalState

/-- The code a command leaves in STATUS.ERR, from the lists of 60_exceptions R241 to R248 in the order of R246. -/
def expectedError (i : Instr) (s : State) : Err :=
  match i with
  | .cfbCfg immA => if immA.toNat = 0 ∨ blockSize < immA.toNat then .invalidParameter else .ok
  | .cfbInit _ kp ivp =>
    if ivp = true ∧ blockSize < s.aIvlen.toNat then .invalidParameter else keyError kp s.cfb.keyed s
  | .cfbProc => procError s.cfb.inited s
  | .cfbProcb => needsInit s.cfb.inited
  | .cfbFinal => needsInit s.cfb.inited
  | .cfbReset => .ok
  | .cfbName => .ok
  | .cfbUosz => .ok
  | .cfbOsz => .ok
  | .cfbAadb => .unsupported
  | .cfbAadn => .unsupported
  | .ctrCfg => .ok
  | .ctrInit _ kp ivp =>
    if ivp = false then .invalidParameter
    else if s.aIvlen.toNat ≠ blockSize then .invalidParameter
    else keyError kp s.ctr.keyed s
  | .ctrProc => procError s.ctr.inited s
  | .ctrProcb => needsInit s.ctr.inited
  | .ctrFinal => needsInit s.ctr.inited
  | .ctrReset => .ok
  | .ctrName => .ok
  | .ctrUosz => .ok
  | .ctrOsz => .ok
  | .ctrAadb => .unsupported
  | .ctrAadn => .unsupported
  | .sipCfg _ _ => .ok
  | .sipInit kp ivp =>
    if kp = false ∨ ivp = true then .invalidParameter
    else if s.aKeylen.toNat ≠ 16 then .invalidParameter
    else .ok
  | .sipUpdn =>
    if s.sip.inited = false then .illegalState
    else if leavesBuffer s.aInoff.toNat s.aLen.toNat then .dataLength
    else .ok
  | .sipUpd => needsInit s.sip.inited
  | .sipFin =>
    if s.sip.inited = false then .illegalState
    else if leavesBuffer s.aOutoff.toNat 8 then .outputLength
    else .ok
  | .sipReset => .ok
  | .sipName => .ok
  | .sipFin64 => needsInit s.sip.inited
  | .sipMacsz => .ok

/-! ## Bytes a command stores to -/

/-- The window offset `a` is one of the bytes the command stores to (20_memory R72): PROC, FIN and NAME store, with the
addresses their meanings use. -/
def StoresTo (i : Instr) (s : State) (a : Nat) : Prop :=
  match i with
  | .cfbProc => OUT_BASE + s.outOff ≤ a ∧ a < OUT_BASE + s.outOff + s.len
  | .ctrProc => OUT_BASE + s.outOff ≤ a ∧ a < OUT_BASE + s.outOff + s.len
  | .sipFin => OUT_BASE + s.outOff ≤ a ∧ a < OUT_BASE + s.outOff + 8
  | .cfbName => NAME_BASE ≤ a ∧ a < NAME_BASE + (s.cfb.name Config.params).length
  | .ctrName => NAME_BASE ≤ a ∧ a < NAME_BASE + (Ctr.name Config.params).length
  | .sipName => NAME_BASE ≤ a ∧ a < NAME_BASE + s.sip.name.length
  | _ => False

/-- CFG or INIT, the only commands that change a key or a configuration (70_reset R271). -/
def IsCfgOrInit (i : Instr) : Bool :=
  match i with
  | .cfbCfg _ => true
  | .cfbInit _ _ _ => true
  | .ctrCfg => true
  | .ctrInit _ _ _ => true
  | .sipCfg _ _ => true
  | .sipInit _ _ => true
  | _ => false

/-- An INIT, the only commands that read KEY_BUF and IV_BUF (10_state R31, R41). -/
def IsInit (i : Instr) : Bool :=
  match i with
  | .cfbInit _ _ _ => true
  | .ctrInit _ _ _ => true
  | .sipInit _ _ => true
  | _ => false

/-! ## The units after INIT (41_cfb R152, 42_ctr R182) -/

/-- The key checks of CFB.INIT and CTR.INIT pass: with KP = 1 the key in KEY_BUF is accepted, with KP = 0 the unit holds one. -/
def KeyAccepted (P : Params) (kp keyed : Bool) (s : State) : Prop :=
  (kp = true → s.aKeylen.toNat ≤ 256 ∧ P.P_KEY_OK (s.mem.readBytes 0x100 s.aKeylen.toNat) = true) ∧
  (kp = false → keyed = true)

/-- The CFB unit after a successful CFB.INIT: the IV zero-padded on the left, everything else from the pseudocode. -/
def cfbAfterInit (P : Params) (enc kp ivp : Bool) (s : State) : Cfb :=
  let iv := if ivp then List.replicate (P.P_B - s.aIvlen.toNat) 0#8 ++ s.mem.readBytes 0x200 s.aIvlen.toNat
    else s.cfb.IV
  { sB := s.cfb.sB, enc := enc, keyed := true, inited := true,
    key := if kp then s.mem.readBytes 0x100 s.aKeylen.toNat else s.cfb.key,
    IV := iv, V := iv, FB := List.replicate s.cfb.sB 0#8, cf := 0, KB := s.cfb.KB, ko := P.P_B }

/-- The CTR unit after a successful CTR.INIT. -/
def ctrAfterInit (P : Params) (kp : Bool) (s : State) : Ctr :=
  { keyed := true, inited := true, key := if kp then s.mem.readBytes 0x100 s.aKeylen.toNat else s.ctr.key,
    IV := s.mem.readBytes 0x200 P.P_B, CTR := s.mem.readBytes 0x200 P.P_B, KB := s.ctr.KB, ko := P.P_B }

/-! ## One session of a unit (40_engine R127): what RESET keeps, and restores the rest from -/

/-- The two CFB units have the same configuration, flags, key and IV. -/
structure SameCfbSession (u w : Cfb) : Prop where
  sB : u.sB = w.sB
  enc : u.enc = w.enc
  keyed : u.keyed = w.keyed
  inited : u.inited = w.inited
  key : u.key = w.key
  IV : u.IV = w.IV

/-- The two CTR units have the same flags, key and IV. -/
structure SameCtrSession (u w : Ctr) : Prop where
  keyed : u.keyed = w.keyed
  inited : u.inited = w.inited
  key : u.key = w.key
  IV : u.IV = w.IV

/-- The two SIP units have the same configuration, flag and key. -/
structure SameSipSession (u w : Sip) : Prop where
  c : u.c = w.c
  d : u.d = w.d
  inited : u.inited = w.inited
  k0 : u.k0 = w.k0
  k1 : u.k1 = w.k1

/-! ## The byte-serial forms (41_cfb R158, 42_ctr R186) -/

/-- `step(x)` of the CFB unit (41_cfb R158). -/
def cfbByteStep (P : Params) (u : Cfb) (x : Byte) : Cfb × Byte :=
  let u := if u.ko = P.P_B then { u with KB := P.E u.key u.V, ko := 0 } else u
  let y := x ^^^ u.KB.getD u.ko 0#8
  (({ u with ko := u.ko + 1 } : Cfb).stage (if u.enc then y else x), y)

/-- `step(x)` of the CTR unit (42_ctr R186). -/
def ctrByteStep (P : Params) (u : Ctr) (x : Byte) : Ctr × Byte :=
  let u := if u.ko = P.P_B then { u with KB := P.E u.key u.CTR, CTR := inc u.CTR, ko := 0 } else u
  ({ u with ko := u.ko + 1 }, x ^^^ u.KB.getD u.ko 0#8)

/-- A per-byte step applied to each byte in order. -/
def serial {U : Type} (f : U → Byte → U × Byte) : U → List Byte → U × List Byte
  | u, [] => (u, [])
  | u, x :: xs => ((serial f (f u x).1 xs).1, (f u x).2 :: (serial f (f u x).1 xs).2)

/-! ## Hook invocations (40_engine R132) -/

/-- The unit's hooks with a list of the runs that `feedback` has received. -/
def recordRuns {U : Type} (H : Hooks U) : Hooks (U × List (List Byte × List Byte)) where
  ko p := H.ko p.1
  setKo p n := (H.setKo p.1 n, p.2)
  KB p := H.KB p.1
  generate p := (H.generate p.1, p.2)
  feedback p xs ys := (H.feedback p.1 xs ys, p.2 ++ [(xs, ys)])

/-- Successive engine calls on one unit: the unit after them and all the output bytes. -/
def engineCalls {U : Type} (P : Params) (H : Hooks U) : U → List (List Byte) → U × List Byte
  | u, [] => (u, [])
  | u, xs :: calls =>
    ((engineCalls P H (engine P H u xs).1 calls).1, (engine P H u xs).2 ++ (engineCalls P H (engine P H u xs).1 calls).2)

/-! ## Closed forms -/

/-- `last_n(S)`: the last `n` bytes of `S` (41_cfb R168). -/
def lastBytes (n : Nat) (S : List Byte) : List Byte := S.drop (S.length - n)

/-- Keystream block `k` of the CFB unit, from the ciphertext stream `C` (41_cfb R168). -/
def cfbBlock (P : Params) (u : Cfb) (C : List Byte) (k : Nat) : List Byte :=
  P.E u.key (lastBytes P.P_B (u.IV ++ C.take (k * P.P_B / u.sB * u.sB)))

/-- Keystream block `k` of the CTR unit (42_ctr R185). -/
def ctrBlock (P : Params) (u : Ctr) (k : Nat) : List Byte := P.E u.key (toBe P.P_B (beInt u.IV + k))

/-- The bytewise successor of 42_ctr R181, with the carry out of the first byte. -/
def carryIncrement : List Byte → List Byte × Bool
  | [] => ([], true)
  | b :: bs =>
    if (carryIncrement bs).2 then ((b + 1#8) :: (carryIncrement bs).1, b == 255#8)
    else (b :: (carryIncrement bs).1, false)

/-! ## SipHash as a function of key and message (43_siphash R218) -/

/-- The four working-state words. -/
abbrev SipWords := DWord × DWord × DWord × DWord

/-- One SipRound (43_siphash R210). -/
def sipRoundOf (v : SipWords) : SipWords :=
  let a0 := v.1 + v.2.1
  let a2 := v.2.2.1 + v.2.2.2
  let a1 := v.2.1.rotateLeft 13 ^^^ a0
  let a3 := v.2.2.2.rotateLeft 16 ^^^ a2
  let b2 := a2 + a1
  let b0 := a0.rotateLeft 32 + a3
  (b0, a1.rotateLeft 17 ^^^ b2, b2.rotateLeft 32, a3.rotateLeft 21 ^^^ b0)

def sipRoundsOf : Nat → SipWords → SipWords
  | 0, v => v
  | n + 1, v => sipRoundOf (sipRoundsOf n v)

/-- One message word folded in (43_siphash R207). -/
def sipFoldOf (c : Nat) (v : SipWords) (w : DWord) : SipWords :=
  let r := sipRoundsOf c (v.1, v.2.1, v.2.2.1, v.2.2.2 ^^^ w)
  (r.1 ^^^ w, r.2.1, r.2.2.1, r.2.2.2)

/-- The little-endian word of at most eight bytes, the first byte in bits 7:0. -/
def sipWordOf (bs : List Byte) : DWord := bs.foldr (fun b w => (w <<< 8) ||| b.setWidth 64) 0#64

/-- The words of a message: its full eight-byte words, then the word of the bytes left over with the length modulo 256 in
the top byte (43_siphash R206, R213). -/
def sipMessageWords (M : List Byte) : List DWord :=
  (List.range (M.length / 8)).map (fun i => sipWordOf ((M.drop (8 * i)).take 8)) ++
    [sipWordOf (M.drop (8 * (M.length / 8))) ||| (BitVec.ofNat 64 (M.length % 256) <<< 56)]

/-- `SipHash_{c,d}(key, M)` (43_siphash R203, R204, R207, R210, R213, R218). -/
def sipHashOf (c d : Nat) (k0 k1 : DWord) (M : List Byte) : DWord :=
  let v : SipWords :=
    (k0 ^^^ 0x736f6d6570736575#64, k1 ^^^ 0x646f72616e646f6d#64, k0 ^^^ 0x6c7967656e657261#64,
      k1 ^^^ 0x7465646279746573#64)
  let v := (sipMessageWords M).foldl (sipFoldOf c) v
  let v := sipRoundsOf d (v.1, v.2.1, v.2.2.1 ^^^ 0xFF#64, v.2.2.2)
  v.1 ^^^ v.2.1 ^^^ v.2.2.1 ^^^ v.2.2.2

/-! ## Names -/

/-- A number in decimal, in ASCII. -/
def decimal (n : Nat) : List Byte := (Nat.toDigits 10 n).map fun ch => BitVec.ofNat 8 ch.toNat

/-- ASCII bytes of a list of characters. -/
def ascii (cs : List Char) : List Byte := cs.map fun ch => BitVec.ofNat 8 ch.toNat

/-- The name the NAME command of a unit writes (41_cfb R163, 42_ctr R191, 43_siphash R223). -/
def expectedName (i : Instr) (s : State) : Option (List Byte) :=
  match i with
  | .cfbName => some (Config.params.P_CIPHER_NAME ++ ascii ['/', 'C', 'F', 'B'] ++ decimal (8 * s.cfb.sB))
  | .ctrName => some (Config.params.P_CIPHER_NAME ++ ascii ['/', 'S', 'I', 'C'])
  | .sipName =>
    some (ascii ['S', 'i', 'p', 'H', 'a', 's', 'h', '-'] ++ decimal s.sip.c.toNat ++ ascii ['-'] ++
      decimal s.sip.d.toNat)
  | _ => none

/-! ## What the host can see (10_state R38) -/

/-- Two states agree on everything a host read can return: STATUS, RESULT0, RESULT1, the argument registers, CFGINFO and
the buffers. They may differ in every field that 10_state R38 lists. -/
structure SameToHost (s s' : State) : Prop where
  err : s.err = s'.err
  result0 : s.result0 = s'.result0
  result1 : s.result1 = s'.result1
  aInoff : s.aInoff = s'.aInoff
  aLen : s.aLen = s'.aLen
  aOutoff : s.aOutoff = s'.aOutoff
  aKeylen : s.aKeylen = s'.aKeylen
  aIvlen : s.aIvlen = s'.aIvlen
  aByte : s.aByte = s'.aByte
  mem : s.mem = s'.mem
  cfb_sB : s.cfb.sB = s'.cfb.sB
  cfb_enc : s.cfb.enc = s'.cfb.enc
  cfb_keyed : s.cfb.keyed = s'.cfb.keyed
  cfb_inited : s.cfb.inited = s'.cfb.inited
  ctr_keyed : s.ctr.keyed = s'.ctr.keyed
  ctr_inited : s.ctr.inited = s'.ctr.inited
  sip_c : s.sip.c = s'.sip.c
  sip_d : s.sip.d = s'.sip.d
  sip_inited : s.sip.inited = s'.sip.inited

end Sys2Proof.Claims

open Sys2Proof Sys2Proof.Machine Sys2Proof.Claims

/-! ## Encoding -/

/-- Decoding the encoding of any command gives the command back, with every operand (30_encoding §2, §3). -/
def Obligations.EveryCommandDecodesFromItsEncoding : Prop := ∀ i : Instr, decode (encode i) = .ok i

/-- A word that decodes to a command is that command's encoding: each command has one word (30_encoding §3). -/
def Obligations.EveryLegalWordIsItsCommandsEncoding : Prop :=
  ∀ (w : Word) (i : Instr), decode w = .ok i → encode i = w

/-- 30_encoding R98: a word is illegal exactly for one of the four reasons, and writing it to CMD ends with ERR_ILLEGAL and
changes no unit. -/
def Obligations.IllegalWordsAreThoseOfTheFourReasons : Prop :=
  ∀ w : Word, ((∃ e, decode w = .error e) ↔ IsIllegalWord w) ∧
    ∀ (s : State) (rest : List Access), s.port = .write CMD 4 w :: rest → IsIllegalWord w →
      step s = .next { s with port := rest, err := .illegal, result0 := 0#32, result1 := 0#32 }

/-- A few words written out in 30_encoding R105 decode to the commands they stand for. -/
def Obligations.TheSpecsExampleWordsDecode : Prop :=
  decode 0x00100000#32 = .ok (.cfbCfg 16#8) ∧ decode 0x000001C1#32 = .ok (.cfbInit true true true) ∧
    decode 0x00000101#32 = .ok (.cfbInit false false true) ∧ decode 0x0000000A#32 = .ok .cfbAadn ∧
    decode 0x000001D1#32 = .ok (.ctrInit true true true) ∧ decode 0x00000018#32 = .ok .ctrOsz ∧
    decode 0x04020020#32 = .ok (.sipCfg 2#8 4#8) ∧ decode 0x000000A1#32 = .ok (.sipInit true false) ∧
    decode 0x0000002B#32 = .ok .sipFin64

/-- A step runs the decoded command: where the port's next access is an aligned 32-bit write to CMD of a word that decodes
to `i`, the step is `exec i` on the state whose port no longer holds the access. -/
def Obligations.AStepRunsTheDecodedCommand : Prop :=
  ∀ (s : State) (w : Word) (i : Instr) (rest : List Access),
    s.port = .write CMD 4 w :: rest → decode w = .ok i → step s = exec i { s with port := rest }

/-- The write that the assembler expands `CMD <command>` to makes the next step run that command (30_encoding §6). -/
def Obligations.AnAssembledCommandRunsAsWritten : Prop :=
  ∀ (s : State) (i : Instr) (rest : List Access),
    s.port = Stmt.expand (.cmd i) ++ rest → step s = exec i { s with port := rest }

/-! ## The bus -/

/-- 20_memory R67: inside the window, an access is a bus error exactly when its width and alignment are not admitted, and no
admitted access reaches two areas of the map; no access is split. -/
def Obligations.BusErrorsAreExactlyTheUnadmittedAccesses : Prop :=
  ∀ (s : State) (a : Access) (rest : List Access) (off n : Nat), s.port = a :: rest → off < 0x3000 →
    (a = .read off n ∨ ∃ v, a = .write off n v) →
    (step s = .fault .busError ↔
      ¬ (if off < 0x100 then n = 4 ∧ off % 4 = 0 else n = 1 ∨ (n = 2 ∧ off % 2 = 0) ∨ (n = 4 ∧ off % 4 = 0))) ∧
    (step s ≠ .fault .busError → ∀ i, i < n → areaOf (off + i) = areaOf off)

/-- An access outside the window is no access to KSE-BC: the model refuses it (20_memory §3; assumption log 6). -/
def Obligations.AccessesOutsideTheWindowAreRefused : Prop :=
  ∀ (s : State) (a : Access) (rest : List Access) (off n : Nat), s.port = a :: rest → 0x3000 ≤ off →
    (a = .read off n ∨ ∃ v, a = .write off n v) → step s = .refused .outsideWindow

/-- What an aligned 32-bit read of the register area returns, and that nothing else changes (10_state §1). -/
def Obligations.RegisterReadsReturnTheRegister : Prop :=
  ∀ (s : State) (rest : List Access) (off : Nat), s.port = .read off 4 :: rest → off < 0x100 → off % 4 = 0 →
    ∃ v : Word, step s = .next { s with port := rest, readLog := s.readLog ++ [v] } ∧
      (off = 0x000 → v = 0#32) ∧ (off = 0x004 → v = s.status Config.params) ∧ (off = 0x008 → v = s.result0) ∧
      (off = 0x00C → v = s.result1) ∧ (off = 0x010 → v = s.aInoff) ∧ (off = 0x014 → v = s.aLen) ∧
      (off = 0x018 → v = s.aOutoff) ∧ (off = 0x01C → v = s.aKeylen) ∧ (off = 0x020 → v = s.aIvlen) ∧
      (off = 0x024 → v = s.aByte.setWidth 32) ∧ (off = 0x028 → v = s.cfginfo) ∧ (0x02C ≤ off → v = 0#32)

/-- The bits of STATUS and of CFGINFO (10_state §1). -/
def Obligations.StatusAndCfginfoShowTheirFields : Prop :=
  (∀ (P : Params) (s : State),
    (s.status P).extractLsb' 0 4 = s.err.code ∧ (s.status P).getLsbD 4 = s.cfb.inited ∧
    (s.status P).getLsbD 5 = s.ctr.inited ∧ (s.status P).getLsbD 6 = s.sip.inited ∧
    (s.status P).getLsbD 7 = false ∧ ((s.status P).extractLsb' 8 8).toNat = P.P_B ∧
    (s.status P).getLsbD 16 = s.cfb.keyed ∧ (s.status P).getLsbD 17 = s.ctr.keyed ∧
    (s.status P).extractLsb' 18 14 = 0#14) ∧
  ∀ (P : Params) (s : State), s.cfb.Inv P →
    (s.cfginfo.extractLsb' 0 8).toNat = s.cfb.sB ∧ s.cfginfo.getLsbD 8 = s.cfb.enc ∧
    s.cfginfo.extractLsb' 9 7 = 0#7 ∧ s.cfginfo.extractLsb' 16 8 = s.sip.c ∧ s.cfginfo.extractLsb' 24 8 = s.sip.d

/-- An aligned 32-bit write to the register area other than CMD: the argument registers take the value, A_BYTE its bits
7:0, and the read-only registers and the reserved offsets ignore it; nothing else changes (10_state §1). -/
def Obligations.RegisterWritesReachOnlyTheArgumentRegisters : Prop :=
  ∀ (s : State) (rest : List Access) (off : Nat) (v : Word),
    s.port = .write off 4 v :: rest → off < 0x100 → off % 4 = 0 → off ≠ 0x000 →
    step s = .next { s with
      port := rest
      aInoff := if off = 0x010 then v else s.aInoff
      aLen := if off = 0x014 then v else s.aLen
      aOutoff := if off = 0x018 then v else s.aOutoff
      aKeylen := if off = 0x01C then v else s.aKeylen
      aIvlen := if off = 0x020 then v else s.aIvlen
      aByte := if off = 0x024 then v.extractLsb' 0 8 else s.aByte }

/-- A read outside the register area gathers its bytes little-endian, a reserved byte reading as 0, with the bits above the
access's width 0; nothing else changes (20_memory §1, §2; the width extension is log 4). -/
def Obligations.BufferReadsGatherBytesLittleEndian : Prop :=
  ∀ (s : State) (rest : List Access) (off n : Nat), s.port = .read off n :: rest → 0x100 ≤ off → off < 0x3000 →
    (n = 1 ∨ (n = 2 ∧ off % 2 = 0) ∨ (n = 4 ∧ off % 4 = 0)) →
    ∃ v : Word, step s = .next { s with port := rest, readLog := s.readLog ++ [v] } ∧
      (∀ k, k < n → v.extractLsb' (8 * k) 8 =
        if 0x400 ≤ off ∧ off < 0x1000 then 0#8 else s.mem.read (off + k)) ∧
      (∀ b, 8 * n ≤ b → v.getLsbD b = false)

/-- A write outside the register area: KEY_BUF, IV_BUF, IN_BUF and OUT_BUF take its bytes little-endian, NAME_BUF and the
reserved range ignore it, and nothing else changes (20_memory §2, 10_state §2). -/
def Obligations.BufferWritesScatterBytesLittleEndian : Prop :=
  ∀ (s : State) (rest : List Access) (off n : Nat) (v : Word), s.port = .write off n v :: rest →
    0x100 ≤ off → off < 0x3000 → (n = 1 ∨ (n = 2 ∧ off % 2 = 0) ∨ (n = 4 ∧ off % 4 = 0)) →
    ∃ m : Memory, step s = .next { s with port := rest, mem := m } ∧
      ∀ a, m.read a =
        if (off < 0x300 ∨ 0x1000 ≤ off) ∧ off ≤ a ∧ a < off + n then v.extractLsb' (8 * (a - off)) 8
        else s.mem.read a

/-- With no access waiting, a step changes nothing. The model's choice (assumption log 3). -/
def Obligations.AWaitingBlockChangesNothing : Prop := ∀ s : State, s.port = [] → step s = .next s

/-! ## Reset -/

/-- The registers and units after the power-on reset (10_state §5). The buffers' contents are unspecified, so nothing is said
of them. -/
def Obligations.PowerOnGivesTheSpecifiedValues : Prop :=
  State.reset.err = .ok ∧ State.reset.result0 = 0#32 ∧ State.reset.result1 = 0#32 ∧ State.reset.aInoff = 0#32 ∧
  State.reset.aLen = 0#32 ∧ State.reset.aOutoff = 0#32 ∧ State.reset.aKeylen = 0#32 ∧ State.reset.aIvlen = 0#32 ∧
  State.reset.aByte = 0#8 ∧
  State.reset.status Config.params = BitVec.ofNat 32 (blockSize * 256) ∧
  State.reset.cfginfo = BitVec.ofNat 32 (blockSize + 0x00020000 + 0x04000000) ∧
  State.reset.cfb =
    { sB := blockSize, enc := false, keyed := false, inited := false, key := [],
      IV := List.replicate blockSize 0#8, V := List.replicate blockSize 0#8, FB := List.replicate blockSize 0#8,
      cf := 0, KB := List.replicate blockSize 0#8, ko := blockSize } ∧
  State.reset.ctr =
    { keyed := false, inited := false, key := [], IV := List.replicate blockSize 0#8,
      CTR := List.replicate blockSize 0#8, KB := List.replicate blockSize 0#8, ko := blockSize } ∧
  State.reset.sip =
    { c := 2#8, d := 4#8, inited := false, k0 := 0#64, k1 := 0#64, v0 := 0x736f6d6570736575#64,
      v1 := 0x646f72616e646f6d#64, v2 := 0x6c7967656e657261#64, v3 := 0x7465646279746573#64, m := 0#64, wp := 0,
      wc := 0#64 }

/-- CFB.CFG with `sB = P_B`, CTR.CFG and SIP.CFG 2, 4 return the three units to their power-on state (70_reset §1). -/
def Obligations.ThreeCfgsReturnTheUnitsToPowerOn : Prop :=
  ∀ s : State, ∃ a b c, exec (.cfbCfg (BitVec.ofNat 8 blockSize)) s = .next a ∧ exec .ctrCfg a = .next b ∧
    exec (.sipCfg 2#8 4#8) b = .next c ∧ c.cfb = State.reset.cfb ∧ c.ctr = State.reset.ctr ∧ c.sip = State.reset.sip ∧
    c.err = .ok ∧ c.mem = s.mem

/-! ## Errors -/

/-- 60_exceptions R240: the numbers of the codes; no other number occurs. -/
def Obligations.ErrorCodesHaveTheirNumbers : Prop :=
  Err.ok.code = 0#4 ∧ Err.invalidParameter.code = 1#4 ∧ Err.dataLength.code = 2#4 ∧ Err.outputLength.code = 3#4 ∧
  Err.illegalState.code = 4#4 ∧ Err.illegal.code = 5#4 ∧ Err.unsupported.code = 6#4 ∧
  ∀ (P : Params) (s : State), ((s.status P).extractLsb' 0 4).toNat ≤ 6

/-- 60_exceptions R241, R242, R243, R245, R247, R248: a write of a command word to CMD leaves in STATUS.ERR exactly the code
those rules list for it. -/
def Obligations.EveryCommandReportsExactlyItsListedError : Prop :=
  ∀ (s : State) (w : Word) (rest : List Access), s.port = .write CMD 4 w :: rest →
    ∃ t, step s = .next t ∧
      (∀ i, decode w = .ok i → t.err = expectedError i s) ∧ (∀ e, decode w = .error e → t.err = .illegal)

/-- 40_engine R121: every command ends in success or in an error; an error leaves everything but STATUS.ERR, RESULT0 and
RESULT1 exactly as it was, the two results 0. -/
def Obligations.AFailedCommandChangesNothingElse : Prop :=
  ∀ (i : Instr) (s : State), ∃ t, exec i s = .next t ∧
    (t.err ≠ .ok → t = { s with err := t.err, result0 := 0#32, result1 := 0#32 })

/-! ## Frames over all commands -/

/-- 30_encoding R92: UNIT selects the unit whose state a command reads and writes; no command has UNIT = 3, a word with
UNIT = 3 is illegal, and no command touches the state of another unit. -/
def Obligations.ACommandTouchesOnlyItsOwnUnit : Prop :=
  (∀ w : Word, fieldUnit w = 3#2 → ∃ e, decode w = .error e) ∧
  ∀ (i : Instr) (s t : State), exec i s = .next t → unitOf i ≠ 3#2 ∧
    (unitOf i ≠ 0#2 → t.cfb = s.cfb) ∧ (unitOf i ≠ 1#2 → t.ctr = s.ctr) ∧ (unitOf i ≠ 2#2 → t.sip = s.sip) ∧
    ∀ c k p, ∃ t', exec i { s with
        cfb := if unitOf i = 0#2 then s.cfb else c
        ctr := if unitOf i = 1#2 then s.ctr else k
        sip := if unitOf i = 2#2 then s.sip else p } = .next t' ∧
      t'.err = t.err ∧ t'.result0 = t.result0 ∧ t'.result1 = t.result1 ∧ t'.mem = t.mem ∧
      (unitOf i = 0#2 → t'.cfb = t.cfb) ∧ (unitOf i = 1#2 → t'.ctr = t.ctr) ∧ (unitOf i = 2#2 → t'.sip = t.sip)

/-- No command writes an argument register, performs another access of the port or adds to the read values. -/
def Obligations.CommandsKeepTheArgumentRegisters : Prop :=
  ∀ (i : Instr) (s t : State), exec i s = .next t →
    t.aInoff = s.aInoff ∧ t.aLen = s.aLen ∧ t.aOutoff = s.aOutoff ∧ t.aKeylen = s.aKeylen ∧ t.aIvlen = s.aIvlen ∧
    t.aByte = s.aByte ∧ t.port = s.port ∧ t.readLog = s.readLog

/-- Every byte of memory outside the bytes a command stores to reads as before; every command but PROC, FIN and NAME stores
nothing (20_memory §3). -/
def Obligations.CommandsStoreOnlyToTheirBytes : Prop :=
  ∀ (i : Instr) (s t : State), exec i s = .next t → ∀ a, ¬ StoresTo i s a → t.mem.read a = s.mem.read a

/-- Only CFG and INIT change a key, an IV, a configuration, a direction or an init flag (70_reset §1, §3). -/
def Obligations.OnlyCfgAndInitChangeKeysAndConfiguration : Prop :=
  ∀ (i : Instr) (s t : State), exec i s = .next t → IsCfgOrInit i = false →
    t.cfb.sB = s.cfb.sB ∧ t.cfb.enc = s.cfb.enc ∧ t.cfb.keyed = s.cfb.keyed ∧ t.cfb.inited = s.cfb.inited ∧
    t.cfb.key = s.cfb.key ∧ t.cfb.IV = s.cfb.IV ∧ t.ctr.keyed = s.ctr.keyed ∧ t.ctr.inited = s.ctr.inited ∧
    t.ctr.key = s.ctr.key ∧ t.ctr.IV = s.ctr.IV ∧ t.sip.c = s.sip.c ∧ t.sip.d = s.sip.d ∧
    t.sip.inited = s.sip.inited ∧ t.sip.k0 = s.sip.k0 ∧ t.sip.k1 = s.sip.k1

/-- RESULT1 is non-zero only after SIP.FIN64, and a command that fails leaves both results 0 (10_state §1). -/
def Obligations.Result1IsNonzeroOnlyAfterFin64 : Prop :=
  ∀ (i : Instr) (s t : State), exec i s = .next t →
    (t.result1 ≠ 0#32 → i = .sipFin64) ∧ (t.err ≠ .ok → t.result0 = 0#32 ∧ t.result1 = 0#32)

/-! ## Completion: what each command does when its checks pass -/

/-- CFB.CFG with a segment size of 1 to `P_B` bytes, CTR.CFG and SIP.CFG construct their unit (41_cfb, 42_ctr, 43_siphash:
the CFG commands). -/
def Obligations.CfgConstructsItsUnit : Prop :=
  (∀ (immA : Byte) (s : State), 1 ≤ immA.toNat → immA.toNat ≤ blockSize →
    exec (.cfbCfg immA) s = .next { s with
      cfb := { sB := immA.toNat, enc := false, keyed := false, inited := false, key := [],
               IV := List.replicate blockSize 0#8, V := List.replicate blockSize 0#8,
               FB := List.replicate immA.toNat 0#8, cf := 0, KB := List.replicate blockSize 0#8, ko := blockSize }
      err := .ok, result0 := 0#32, result1 := 0#32 }) ∧
  (∀ s : State, exec .ctrCfg s = .next { s with
      ctr := { keyed := false, inited := false, key := [], IV := List.replicate blockSize 0#8,
               CTR := List.replicate blockSize 0#8, KB := List.replicate blockSize 0#8, ko := blockSize }
      err := .ok, result0 := 0#32, result1 := 0#32 }) ∧
  (∀ (immA immB : Byte) (s : State), exec (.sipCfg immA immB) s = .next { s with
      sip := { c := immA, d := immB, inited := false, k0 := 0#64, k1 := 0#64, v0 := 0x736f6d6570736575#64,
               v1 := 0x646f72616e646f6d#64, v2 := 0x6c7967656e657261#64, v3 := 0x7465646279746573#64, m := 0#64,
               wp := 0, wc := 0#64 }
      err := .ok, result0 := 0#32, result1 := 0#32 })

/-- CFB.INIT whose checks pass stores the direction, the padded IV if one is given and the key if one is given, and resets
the unit: for the machine, and for the meaning under any parameters (41_cfb: CFB.INIT). -/
def Obligations.CfbInitRekeysAndResets : Prop :=
  (∀ (enc kp ivp : Bool) (s : State), (ivp = true → s.aIvlen.toNat ≤ blockSize) →
    KeyAccepted Config.params kp s.cfb.keyed s →
    exec (.cfbInit enc kp ivp) s = .next { s with
      cfb := cfbAfterInit Config.params enc kp ivp s, err := .ok, result0 := 0#32, result1 := 0#32 }) ∧
  (∀ (P : Params) (enc kp ivp : Bool) (s : State), (ivp = true → s.aIvlen.toNat ≤ P.P_B) →
    KeyAccepted P kp s.cfb.keyed s →
    cfbInit P enc kp ivp s = { s with
      cfb := cfbAfterInit P enc kp ivp s, err := .ok, result0 := 0#32, result1 := 0#32 })

/-- CTR.INIT with an IV of exactly `P_B` bytes whose key checks pass stores the IV, the key if one is given, and resets the
unit, whatever ENC is: for the machine, and for the meaning under any parameters (42_ctr: CTR.INIT). -/
def Obligations.CtrInitRekeysAndResets : Prop :=
  (∀ (enc kp : Bool) (s : State), s.aIvlen.toNat = blockSize → KeyAccepted Config.params kp s.ctr.keyed s →
    exec (.ctrInit enc kp true) s = .next { s with
      ctr := ctrAfterInit Config.params kp s, err := .ok, result0 := 0#32, result1 := 0#32 }) ∧
  (∀ (P : Params) (enc kp : Bool) (s : State), s.aIvlen.toNat = P.P_B → KeyAccepted P kp s.ctr.keyed s →
    ctrInit P enc kp true s = { s with
      ctr := ctrAfterInit P kp s, err := .ok, result0 := 0#32, result1 := 0#32 })

/-- SIP.INIT with a key of 16 bytes splits it into two little-endian halves and resets the unit (43_siphash: SIP.INIT). -/
def Obligations.SipInitSplitsTheKeyLittleEndian : Prop :=
  ∀ s : State, s.aKeylen = 16#32 → ∃ k0 k1 : DWord,
    (∀ j, j < 8 → k0.extractLsb' (8 * j) 8 = s.mem.read (0x100 + j)) ∧
    (∀ j, j < 8 → k1.extractLsb' (8 * j) 8 = s.mem.read (0x108 + j)) ∧
    exec (.sipInit true false) s = .next { s with
      sip := { c := s.sip.c, d := s.sip.d, inited := true, k0 := k0, k1 := k1, v0 := k0 ^^^ 0x736f6d6570736575#64,
               v1 := k1 ^^^ 0x646f72616e646f6d#64, v2 := k0 ^^^ 0x6c7967656e657261#64,
               v3 := k1 ^^^ 0x7465646279746573#64, m := 0#64, wp := 0, wc := 0#64 }
      err := .ok, result0 := 0#32, result1 := 0#32 }

/-- CFB.PROC whose checks pass is the byte-serial form of 41_cfb R158 on the bytes of IN_BUF, its output stored in OUT_BUF
(40_engine and 41_cfb: PROC). -/
def Obligations.CfbProcIsTheByteSerialForm : Prop :=
  ∀ s : State, s.cfb.inited = true → s.aInoff.toNat + s.aLen.toNat ≤ 4096 → s.aOutoff.toNat + s.aLen.toNat ≤ 4096 →
    let r := serial (cfbByteStep Config.params) s.cfb (s.mem.readBytes (0x1000 + s.aInoff.toNat) s.aLen.toNat)
    exec .cfbProc s = .next { s with
      cfb := r.1, mem := s.mem.writeBytes (0x2000 + s.aOutoff.toNat) r.2
      err := .ok, result0 := s.aLen, result1 := 0#32 }

/-- CTR.PROC whose checks pass is the byte-serial form of 42_ctr R186 on the bytes of IN_BUF, its output stored in OUT_BUF
(40_engine and 42_ctr: PROC). -/
def Obligations.CtrProcIsTheByteSerialForm : Prop :=
  ∀ s : State, s.ctr.inited = true → s.aInoff.toNat + s.aLen.toNat ≤ 4096 → s.aOutoff.toNat + s.aLen.toNat ≤ 4096 →
    let r := serial (ctrByteStep Config.params) s.ctr (s.mem.readBytes (0x1000 + s.aInoff.toNat) s.aLen.toNat)
    exec .ctrProc s = .next { s with
      ctr := r.1, mem := s.mem.writeBytes (0x2000 + s.aOutoff.toNat) r.2
      err := .ok, result0 := s.aLen, result1 := 0#32 }

/-- PROCB of an initialised unit is one byte-serial step on A_BYTE, its byte in RESULT0[7:0] (40_engine R140). -/
def Obligations.ProcbIsOneByteSerialStep : Prop :=
  (∀ s : State, s.cfb.inited = true →
    exec .cfbProcb s = .next { s with
      cfb := (cfbByteStep Config.params s.cfb s.aByte).1, err := .ok
      result0 := (cfbByteStep Config.params s.cfb s.aByte).2.setWidth 32, result1 := 0#32 }) ∧
  (∀ s : State, s.ctr.inited = true →
    exec .ctrProcb s = .next { s with
      ctr := (ctrByteStep Config.params s.ctr s.aByte).1, err := .ok
      result0 := (ctrByteStep Config.params s.ctr s.aByte).2.setWidth 32, result1 := 0#32 }) ∧
  (∀ s : State, s.cfb.inited = false → exec .cfbProcb s = .next (s.raise .illegalState)) ∧
  (∀ s : State, s.ctr.inited = false → exec .ctrProcb s = .next (s.raise .illegalState))

/-- 40_engine R141: FINAL of an initialised unit returns 0 and changes no unit state and no byte; of another it fails with
ERR_ILLEGAL_STATE. -/
def Obligations.FinalProducesNothing : Prop :=
  (∀ s : State, s.cfb.inited = true →
    exec .cfbFinal s = .next { s with err := .ok, result0 := 0#32, result1 := 0#32 }) ∧
  (∀ s : State, s.ctr.inited = true →
    exec .ctrFinal s = .next { s with err := .ok, result0 := 0#32, result1 := 0#32 }) ∧
  (∀ s : State, s.cfb.inited = false →
    exec .cfbFinal s = .next { s with err := .illegalState, result0 := 0#32, result1 := 0#32 }) ∧
  (∀ s : State, s.ctr.inited = false →
    exec .ctrFinal s = .next { s with err := .illegalState, result0 := 0#32, result1 := 0#32 })

/-- The three RESET commands in any state: `cfb_reset()` (41_cfb R154), `ctr_reset()` (42_ctr R199), `sip_reset()`
(43_siphash R204). -/
def Obligations.ResetRestoresTheChainingState : Prop :=
  ∀ s : State,
    exec .cfbReset s = .next { s with
      cfb := { s.cfb with ko := blockSize, V := s.cfb.IV, FB := List.replicate s.cfb.sB 0#8, cf := 0 }
      err := .ok, result0 := 0#32, result1 := 0#32 } ∧
    exec .ctrReset s = .next { s with
      ctr := { s.ctr with ko := blockSize, CTR := s.ctr.IV }, err := .ok, result0 := 0#32, result1 := 0#32 } ∧
    exec .sipReset s = .next { s with
      sip := { s.sip with
        v0 := s.sip.k0 ^^^ 0x736f6d6570736575#64, v1 := s.sip.k1 ^^^ 0x646f72616e646f6d#64
        v2 := s.sip.k0 ^^^ 0x6c7967656e657261#64, v3 := s.sip.k1 ^^^ 0x7465646279746573#64
        m := 0#64, wp := 0, wc := 0#64 }
      err := .ok, result0 := 0#32, result1 := 0#32 }

/-- 40_engine R127: RESET keeps the key, the flags and the configuration, is idempotent, before the first INIT leaves the
power-on state, right after a successful INIT changes nothing, and from any state of the unit with the key, IV, flags and
configuration that INIT left gives the unit that INIT left, but for the keystream block KB (which R134 leaves as it is). -/
def Obligations.ResetIsIdempotentAndKeepsTheKey : Prop :=
  (∀ (i : Instr) (s : State), i = .cfbReset ∨ i = .ctrReset ∨ i = .sipReset →
    ∃ t, exec i s = .next t ∧ exec i t = .next t ∧
      t.cfb.key = s.cfb.key ∧ t.cfb.keyed = s.cfb.keyed ∧ t.cfb.inited = s.cfb.inited ∧ t.cfb.sB = s.cfb.sB ∧
      t.cfb.enc = s.cfb.enc ∧ t.ctr.key = s.ctr.key ∧ t.ctr.keyed = s.ctr.keyed ∧ t.ctr.inited = s.ctr.inited ∧
      t.sip.k0 = s.sip.k0 ∧ t.sip.k1 = s.sip.k1 ∧ t.sip.inited = s.sip.inited ∧ t.sip.c = s.sip.c ∧
      t.sip.d = s.sip.d ∧
      (s.cfb = State.reset.cfb → t.cfb = s.cfb) ∧ (s.ctr = State.reset.ctr → t.ctr = s.ctr) ∧
      (s.sip = State.reset.sip → t.sip = s.sip)) ∧
  (∀ (enc kp ivp : Bool) (s t : State), exec (.cfbInit enc kp ivp) s = .next t → t.err = .ok →
    exec .cfbReset t = .next t) ∧
  (∀ (enc kp ivp : Bool) (s t : State), exec (.ctrInit enc kp ivp) s = .next t → t.err = .ok →
    exec .ctrReset t = .next t) ∧
  (∀ (kp ivp : Bool) (s t : State), exec (.sipInit kp ivp) s = .next t → t.err = .ok → exec .sipReset t = .next t) ∧
  (∀ (enc kp ivp : Bool) (s t s' : State), exec (.cfbInit enc kp ivp) s = .next t → t.err = .ok →
    SameCfbSession s'.cfb t.cfb → ∃ r, exec .cfbReset s' = .next r ∧ r.cfb = { t.cfb with KB := s'.cfb.KB }) ∧
  (∀ (enc kp ivp : Bool) (s t s' : State), exec (.ctrInit enc kp ivp) s = .next t → t.err = .ok →
    SameCtrSession s'.ctr t.ctr → ∃ r, exec .ctrReset s' = .next r ∧ r.ctr = { t.ctr with KB := s'.ctr.KB }) ∧
  (∀ (kp ivp : Bool) (s t s' : State), exec (.sipInit kp ivp) s = .next t → t.err = .ok →
    SameSipSession s'.sip t.sip → ∃ r, exec .sipReset s' = .next r ∧ r.sip = t.sip)

/-- The NAME commands write their unit's name from the first byte of NAME_BUF and return its length; every other byte and
all other state are kept (40_engine R136 and the three NAME rules). -/
def Obligations.NameWritesTheUnitsName : Prop :=
  ∀ (i : Instr) (s : State) (str : List Byte), expectedName i s = some str →
    ∃ m : Memory, exec i s = .next { s with
        mem := m, err := .ok, result0 := BitVec.ofNat 32 str.length, result1 := 0#32 } ∧
      (∀ j, j < str.length → m.read (0x300 + j) = str.getD j 0#8) ∧
      (∀ a, ¬ (0x300 ≤ a ∧ a < 0x300 + str.length) → m.read a = s.mem.read a)

/-- 40_engine R138: the size queries return A_LEN with no check and change no unit state. 43_siphash R224: the word
0x0000002C is SIP.MACSZ, which returns 8 in every state. -/
def Obligations.SizeQueriesReturnTheLengthAndMacszEight : Prop :=
  (∀ (i : Instr) (s : State), i = .cfbUosz ∨ i = .cfbOsz ∨ i = .ctrUosz ∨ i = .ctrOsz →
    exec i s = .next { s with err := .ok, result0 := s.aLen, result1 := 0#32 }) ∧
  decode 0x0000002C#32 = .ok .sipMacsz ∧
  ∀ s : State, exec .sipMacsz s = .next { s with err := .ok, result0 := 8#32, result1 := 0#32 }

/-- 40_engine R137: the AAD commands always end with ERR_UNSUPPORTED and change nothing else. -/
def Obligations.AadCommandsAreUnsupported : Prop :=
  ∀ (i : Instr) (s : State), i = .cfbAadb ∨ i = .cfbAadn ∨ i = .ctrAadb ∨ i = .ctrAadn →
    exec i s = .next { s with err := .unsupported, result0 := 0#32, result1 := 0#32 }

/-- SIP.UPD and SIP.UPDN of an initialised unit absorb A_BYTE, and the bytes of IN_BUF in increasing offset (43_siphash: UPD,
UPDN). -/
def Obligations.UpdatesAbsorbTheirBytes : Prop :=
  (∀ s : State, s.sip.inited = true →
    exec .sipUpd s = .next { s with
      sip := s.sip.absorb s.aByte, err := .ok, result0 := 0#32, result1 := 0#32 }) ∧
  (∀ s : State, s.sip.inited = true → s.aInoff.toNat + s.aLen.toNat ≤ 4096 →
    exec .sipUpdn s = .next { s with
      sip := (s.mem.readBytes (0x1000 + s.aInoff.toNat) s.aLen.toNat).foldl Sip.absorb s.sip
      err := .ok, result0 := 0#32, result1 := 0#32 })

/-- SIP.FIN and SIP.FIN64 of an initialised unit: FIN writes the MAC little-endian to OUT_BUF and returns 8, FIN64 returns it
in RESULT0 and RESULT1, and both reset the unit (43_siphash: FIN, FIN64). -/
def Obligations.FinAndFin64ReturnTheMacAndReset : Prop :=
  (∀ s : State, s.sip.inited = true → s.aOutoff.toNat + 8 ≤ 4096 →
    ∃ m : Memory, exec .sipFin s = .next { s with
        sip := s.sip.reset, mem := m, err := .ok, result0 := 8#32, result1 := 0#32 } ∧
      (∀ j, j < 8 → m.read (0x2000 + s.aOutoff.toNat + j) = s.sip.finalize.1.extractLsb' (8 * j) 8) ∧
      (∀ a, ¬ (0x2000 + s.aOutoff.toNat ≤ a ∧ a < 0x2000 + s.aOutoff.toNat + 8) → m.read a = s.mem.read a)) ∧
  (∀ s : State, s.sip.inited = true →
    exec .sipFin64 s = .next { s with
      sip := s.sip.reset, err := .ok, result0 := s.sip.finalize.1.extractLsb' 0 32
      result1 := s.sip.finalize.1.extractLsb' 32 32 })

/-! ## The keystream engine -/

/-- 41_cfb R158: the run-based engine of the CFB unit leaves the same outputs and the same unit as the byte-serial form, so
the unit it leaves does not depend on how the bytes were split. -/
def Obligations.CfbEngineEqualsTheByteSerialForm : Prop :=
  ∀ (P : Params) (u : Cfb) (xs ys : List Byte), engine P (Cfb.hooks P) u xs = serial (cfbByteStep P) u xs ∧
    (engine P (Cfb.hooks P) (engine P (Cfb.hooks P) u xs).1 ys).1 = (engine P (Cfb.hooks P) u (xs ++ ys)).1

/-- 42_ctr R186: the feedback hook of the CTR unit does nothing, its engine equals the byte-serial form, and its output does
not depend on how the bytes were split. -/
def Obligations.CtrEngineEqualsTheByteSerialForm : Prop :=
  ∀ (P : Params) (u : Ctr) (xs ys : List Byte), (Ctr.hooks P).feedback u xs ys = u ∧
    engine P (Ctr.hooks P) u xs = serial (ctrByteStep P) u xs ∧
    (engine P (Ctr.hooks P) u xs).2 ++ (engine P (Ctr.hooks P) (engine P (Ctr.hooks P) u xs).1 ys).2 =
      (engine P (Ctr.hooks P) u (xs ++ ys)).2

/-- Splitting an input into successive engine calls in any way gives the same output bytes and the same final unit
(40_engine §3). -/
def Obligations.ChunkingIsInvisible : Prop :=
  (∀ (P : Params) (u : Cfb) (calls : List (List Byte)),
    engineCalls P (Cfb.hooks P) u calls = engine P (Cfb.hooks P) u calls.flatten) ∧
  (∀ (P : Params) (u : Ctr) (calls : List (List Byte)),
    engineCalls P (Ctr.hooks P) u calls = engine P (Ctr.hooks P) u calls.flatten)

/-- Over any sequence of engine calls, the runs passed to the feedback hook, joined, are all the inputs and all the outputs,
each byte once and in order (40_engine §3). -/
def Obligations.TheFeedbackHookSeesEveryByteOnce : Prop :=
  ∀ (U : Type) (P : Params) (H : Hooks U) (u : U) (calls : List (List Byte)),
    let r := engineCalls P (recordRuns H) (u, []) calls
    (r.1.2.flatMap fun run => run.1) = calls.flatten ∧ (r.1.2.flatMap fun run => run.2) = r.2

/-- 40_engine R135: an engine call on no bytes changes nothing and gives nothing, and so PROC and UPDN of length 0 change
no unit and no byte once their checks pass. -/
def Obligations.ZeroLengthProcessingChangesNothing : Prop :=
  (∀ (P : Params) (u : Cfb), engine P (Cfb.hooks P) u [] = (u, [])) ∧
  (∀ (P : Params) (u : Ctr), engine P (Ctr.hooks P) u [] = (u, [])) ∧
  (∀ s : State, s.cfb.inited = true → s.aLen = 0#32 → s.aInoff.toNat ≤ 4096 → s.aOutoff.toNat ≤ 4096 →
    exec .cfbProc s = .next { s with err := .ok, result0 := 0#32, result1 := 0#32 }) ∧
  (∀ s : State, s.ctr.inited = true → s.aLen = 0#32 → s.aInoff.toNat ≤ 4096 → s.aOutoff.toNat ≤ 4096 →
    exec .ctrProc s = .next { s with err := .ok, result0 := 0#32, result1 := 0#32 }) ∧
  (∀ s : State, s.sip.inited = true → s.aLen = 0#32 → s.aInoff.toNat ≤ 4096 →
    exec .sipUpdn s = .next { s with err := .ok, result0 := 0#32, result1 := 0#32 })

/-- 41_cfb R167: what one CFB unit encrypts from its reset, another of the same segment size, key and IV decrypts from its
reset, and both end with the same shift register and the same number of staged bytes. -/
def Obligations.CfbDecryptsWhatItEncrypts : Prop :=
  ∀ (P : Params) (u w : Cfb) (plain : List Byte), u.enc = true → w.enc = false → w.sB = u.sB → w.key = u.key →
    w.IV = u.IV →
    let c := engine P (Cfb.hooks P) (u.reset P) plain
    let p := engine P (Cfb.hooks P) (w.reset P) c.2
    p.2 = plain ∧ p.1.V = c.1.V ∧ p.1.cf = c.1.cf

/-- 42_ctr R195: two CTR units of equal key and IV, each from its reset, XOR the same keystream onto their input, so one
returns the bytes whose transform by the other it is given. -/
def Obligations.CtrDecryptsWithTheSameOperation : Prop :=
  ∀ (P : Params) (u w : Ctr) (plain : List Byte), w.key = u.key → w.IV = u.IV →
    (engine P (Ctr.hooks P) (w.reset P) plain).2 = (engine P (Ctr.hooks P) (u.reset P) plain).2 ∧
    (engine P (Ctr.hooks P) (w.reset P) (engine P (Ctr.hooks P) (u.reset P) plain).2).2 = plain

/-- The CFB keystream in closed form: from a reset, byte `i` is XORed with byte `i mod P_B` of the encryption of the last
`P_B` bytes of the IV followed by the whole segments of ciphertext before its block (41_cfb §3). -/
def Obligations.CfbKeystreamInClosedForm : Prop :=
  ∀ (P : Params) (u : Cfb) (xs : List Byte), u.Inv P →
    let ys := (engine P (Cfb.hooks P) (u.reset P) xs).2
    let C := if u.enc then ys else xs
    ∀ i, i < xs.length →
      ys.getD i 0#8 = xs.getD i 0#8 ^^^ (cfbBlock P u C (i / P.P_B)).getD (i % P.P_B) 0#8

/-- When the segment size divides the block size, the CFB unit produces the same output as with full-block segments
(41_cfb §3). -/
def Obligations.DividingSegmentsGiveFullBlockCfb : Prop :=
  ∀ (P : Params) (u u' : Cfb) (xs : List Byte), u.Inv P → u'.Inv P → u.sB ∣ P.P_B → u'.sB = P.P_B →
    u'.key = u.key → u'.IV = u.IV → u'.enc = u.enc →
    (engine P (Cfb.hooks P) (u.reset P) xs).2 = (engine P (Cfb.hooks P) (u'.reset P) xs).2

/-- 42_ctr R181: `inc` is the successor modulo `2^(8n)` of the big-endian value, bytewise with carry, and the all-0xFF
block goes to all zeros. -/
def Obligations.IncIsTheBytewiseCarry : Prop :=
  ∀ X : List Byte, (inc X).length = X.length ∧ beInt (inc X) = (beInt X + 1) % 256 ^ X.length ∧
    inc X = (carryIncrement X).1 ∧
    (∀ n, inc (List.replicate n 255#8) = List.replicate n 0#8)

/-- 42_ctr R185: from a reset, the counter after `n` bytes is the IV plus the number of blocks drawn, block `k` is the
encryption of the IV plus `k`, the keystream has period `2^(8*P_B)` blocks, and the all-0xFF counter goes to all zeros. -/
def Obligations.CtrKeystreamInClosedForm : Prop :=
  ∀ (P : Params) (u : Ctr) (xs : List Byte), u.Inv P →
    (engine P (Ctr.hooks P) (u.reset P) xs).1.CTR =
      toBe P.P_B (beInt u.IV + (xs.length + P.P_B - 1) / P.P_B) ∧
    (∀ i, i < xs.length →
      (engine P (Ctr.hooks P) (u.reset P) xs).2.getD i 0#8 =
        xs.getD i 0#8 ^^^ (ctrBlock P u (i / P.P_B)).getD (i % P.P_B) 0#8) ∧
    (∀ k, ctrBlock P u (k + 256 ^ P.P_B) = ctrBlock P u k) ∧
    (u.CTR = List.replicate P.P_B 255#8 → (u.generate P).CTR = List.replicate P.P_B 0#8)

/-! ## SipHash -/

/-- 43_siphash R206: after any message from a reset, the pending bytes stand in the top of `m` in arrival order over zeros,
and whenever an eighth byte arrives the little-endian word of the last eight bytes is folded. -/
def Obligations.PendingBytesSitInTheTopOfM : Prop :=
  ∀ (u : Sip) (M : List Byte),
    let t := M.foldl Sip.absorb u.reset
    let r := M.length % 8
    t.wp = r ∧ t.wc = BitVec.ofNat 64 (M.length / 8) ∧
    (∀ j, j < r → t.m.extractLsb' (8 * (8 - r + j)) 8 = M.getD (M.length - r + j) 0#8) ∧
    t.m.extractLsb' 0 (64 - 8 * r) = 0 ∧
    (M.length ≠ 0 → M.length % 8 = 0 →
      t = { ((M.take (M.length - 8)).foldl Sip.absorb u.reset).fold (sipWordOf (M.drop (M.length - 8))) with
        wp := 0, m := 0#64 })

/-- The result of finalization after any message from a reset is SipHash of the key and the message (43_siphash §6). -/
def Obligations.TheMacIsSipHashOfKeyAndMessage : Prop :=
  ∀ (u : Sip) (M : List Byte),
    (M.foldl Sip.absorb u.reset).finalize.1 = sipHashOf u.c.toNat u.d.toNat u.k0 u.k1 M

/-- The source's known answer: with `c = 2`, `d = 4`, the key 00..0f and no message byte since the reset, FIN64 returns
0x726fdb47dd0e0e31 (43_siphash §1, §5). -/
def Obligations.TheSourcesKnownAnswerHolds : Prop :=
  ∀ s : State, s.sip.inited = true → s.sip.c = 2#8 → s.sip.d = 4#8 → s.sip.k0 = 0x0706050403020100#64 →
    s.sip.k1 = 0x0f0e0d0c0b0a0908#64 → s.sip = s.sip.reset →
    exec .sipFin64 s = .next { s with err := .ok, result0 := 0xdd0e0e31#32, result1 := 0x726fdb47#32 }

/-- UPDN leaves the unit that UPD commands, one per byte of its input in order, leave (43_siphash §6). -/
def Obligations.UpdnEqualsOneUpdPerByte : Prop :=
  ∀ s : State, s.sip.inited = true → s.aInoff.toNat + s.aLen.toNat ≤ 4096 →
    ∃ t, exec .sipUpdn s = .next t ∧
      t.sip = (s.inputBytes.foldl
        (fun a b => match exec .sipUpd { a with aByte := b } with | .next a' => a' | _ => a) s).sip

/-- 43_siphash R216: after FIN or FIN64 succeeds the unit is in the state SIP.RESET gives. -/
def Obligations.FinLeavesTheStateResetGives : Prop :=
  ∀ (i : Instr) (s t r : State), i = .sipFin ∨ i = .sipFin64 → exec i s = .next t → t.err = .ok →
    exec .sipReset s = .next r → t.sip = r.sip

/-- 43_siphash R222: FIN64 returns the low half of the MAC in RESULT0 and the high half in RESULT1, and the eight bytes FIN
writes, read as two little-endian words, are the same two results. -/
def Obligations.FinsBytesAreFin64sResults : Prop :=
  ∀ s : State, s.sip.inited = true → s.aOutoff.toNat + 8 ≤ 4096 →
    ∃ t t', exec .sipFin s = .next t ∧ exec .sipFin64 s = .next t' ∧
      t'.result0 = s.sip.finalize.1.extractLsb' 0 32 ∧ t'.result1 = s.sip.finalize.1.extractLsb' 32 32 ∧
      BitVec.ofNat 32 (leInt (t.mem.readBytes (0x2000 + s.aOutoff.toNat) 4)) = t'.result0 ∧
      BitVec.ofNat 32 (leInt (t.mem.readBytes (0x2004 + s.aOutoff.toNat) 4)) = t'.result1

/-! ## The invariant -/

/-- The state after reset meets the invariant (10_state R33, R35, R37). -/
def Obligations.ResetMeetsTheInvariant : Prop := State.reset.Inv Config.params

/-- Every step keeps the invariant of 10_state R33, R35 and R37 and the canonical form of the memory, from every state that
meets it. -/
def Obligations.EveryStepKeepsTheInvariant : Prop :=
  ∀ s t : State, s.Inv Config.params → step s = .next t → t.Inv Config.params

/-! ## Isolation -/

/-- No host read shows hidden state: two states that agree on what the host can see answer every read alike (10_state §4). -/
def Obligations.HostReadsShowNoHiddenState : Prop :=
  ∀ (s s' : State) (off n : Nat) (rest rest' : List Access), SameToHost s s' →
    s.port = .read off n :: rest → s'.port = .read off n :: rest' →
    (∃ v, step s = .next { s with port := rest, readLog := s.readLog ++ [v] } ∧
      step s' = .next { s' with port := rest', readLog := s'.readLog ++ [v] }) ∨
    (step s = .fault .busError ∧ step s' = .fault .busError) ∨
    (step s = .refused .outsideWindow ∧ step s' = .refused .outsideWindow)

/-- Keys and IVs are copied at INIT: what KEY_BUF and IV_BUF hold reaches no unit, no result and no error code through any
other command (10_state §4, 70_reset §3). -/
def Obligations.KeyAndIvBuffersReachUnitsOnlyThroughInit : Prop :=
  ∀ (i : Instr) (s : State) (m : Memory), IsInit i = false →
    (∀ a, ¬ (0x100 ≤ a ∧ a < 0x300) → m.read a = s.mem.read a) →
    ∃ t t', exec i s = .next t ∧ exec i { s with mem := m } = .next t' ∧
      t'.cfb = t.cfb ∧ t'.ctr = t.ctr ∧ t'.sip = t.sip ∧ t'.err = t.err ∧ t'.result0 = t.result0 ∧
      t'.result1 = t.result1
end

