-- ==== Sys2Proof/Laws/State.lean ====
section
/-! SUPPORT. What each update of the state and of the units does to each field: one lemma per field per update, true by
rfl, so that no later proof unfolds a record update. -/

namespace Sys2Proof.Machine

/-! ## `State.writeMem` -/

@[simp] theorem State.writeMem_err (s : State) (addr : Nat) (bs : List Byte) : (s.writeMem addr bs).err = s.err := rfl
@[simp] theorem State.writeMem_result0 (s : State) (addr : Nat) (bs : List Byte) : (s.writeMem addr bs).result0 = s.result0 := rfl
@[simp] theorem State.writeMem_result1 (s : State) (addr : Nat) (bs : List Byte) : (s.writeMem addr bs).result1 = s.result1 := rfl
@[simp] theorem State.writeMem_aInoff (s : State) (addr : Nat) (bs : List Byte) : (s.writeMem addr bs).aInoff = s.aInoff := rfl
@[simp] theorem State.writeMem_aLen (s : State) (addr : Nat) (bs : List Byte) : (s.writeMem addr bs).aLen = s.aLen := rfl
@[simp] theorem State.writeMem_aOutoff (s : State) (addr : Nat) (bs : List Byte) : (s.writeMem addr bs).aOutoff = s.aOutoff := rfl
@[simp] theorem State.writeMem_aKeylen (s : State) (addr : Nat) (bs : List Byte) : (s.writeMem addr bs).aKeylen = s.aKeylen := rfl
@[simp] theorem State.writeMem_aIvlen (s : State) (addr : Nat) (bs : List Byte) : (s.writeMem addr bs).aIvlen = s.aIvlen := rfl
@[simp] theorem State.writeMem_aByte (s : State) (addr : Nat) (bs : List Byte) : (s.writeMem addr bs).aByte = s.aByte := rfl
@[simp] theorem State.writeMem_mem (s : State) (addr : Nat) (bs : List Byte) : (s.writeMem addr bs).mem = s.mem.writeBytes addr bs := rfl
@[simp] theorem State.writeMem_cfb (s : State) (addr : Nat) (bs : List Byte) : (s.writeMem addr bs).cfb = s.cfb := rfl
@[simp] theorem State.writeMem_ctr (s : State) (addr : Nat) (bs : List Byte) : (s.writeMem addr bs).ctr = s.ctr := rfl
@[simp] theorem State.writeMem_sip (s : State) (addr : Nat) (bs : List Byte) : (s.writeMem addr bs).sip = s.sip := rfl
@[simp] theorem State.writeMem_port (s : State) (addr : Nat) (bs : List Byte) : (s.writeMem addr bs).port = s.port := rfl
@[simp] theorem State.writeMem_readLog (s : State) (addr : Nat) (bs : List Byte) : (s.writeMem addr bs).readLog = s.readLog := rfl

/-! ## `State.setCfb` -/

@[simp] theorem State.setCfb_err (s : State) (u : Cfb) : (s.setCfb u).err = s.err := rfl
@[simp] theorem State.setCfb_result0 (s : State) (u : Cfb) : (s.setCfb u).result0 = s.result0 := rfl
@[simp] theorem State.setCfb_result1 (s : State) (u : Cfb) : (s.setCfb u).result1 = s.result1 := rfl
@[simp] theorem State.setCfb_aInoff (s : State) (u : Cfb) : (s.setCfb u).aInoff = s.aInoff := rfl
@[simp] theorem State.setCfb_aLen (s : State) (u : Cfb) : (s.setCfb u).aLen = s.aLen := rfl
@[simp] theorem State.setCfb_aOutoff (s : State) (u : Cfb) : (s.setCfb u).aOutoff = s.aOutoff := rfl
@[simp] theorem State.setCfb_aKeylen (s : State) (u : Cfb) : (s.setCfb u).aKeylen = s.aKeylen := rfl
@[simp] theorem State.setCfb_aIvlen (s : State) (u : Cfb) : (s.setCfb u).aIvlen = s.aIvlen := rfl
@[simp] theorem State.setCfb_aByte (s : State) (u : Cfb) : (s.setCfb u).aByte = s.aByte := rfl
@[simp] theorem State.setCfb_mem (s : State) (u : Cfb) : (s.setCfb u).mem = s.mem := rfl
@[simp] theorem State.setCfb_cfb (s : State) (u : Cfb) : (s.setCfb u).cfb = u := rfl
@[simp] theorem State.setCfb_ctr (s : State) (u : Cfb) : (s.setCfb u).ctr = s.ctr := rfl
@[simp] theorem State.setCfb_sip (s : State) (u : Cfb) : (s.setCfb u).sip = s.sip := rfl
@[simp] theorem State.setCfb_port (s : State) (u : Cfb) : (s.setCfb u).port = s.port := rfl
@[simp] theorem State.setCfb_readLog (s : State) (u : Cfb) : (s.setCfb u).readLog = s.readLog := rfl

/-! ## `State.setCtr` -/

@[simp] theorem State.setCtr_err (s : State) (u : Ctr) : (s.setCtr u).err = s.err := rfl
@[simp] theorem State.setCtr_result0 (s : State) (u : Ctr) : (s.setCtr u).result0 = s.result0 := rfl
@[simp] theorem State.setCtr_result1 (s : State) (u : Ctr) : (s.setCtr u).result1 = s.result1 := rfl
@[simp] theorem State.setCtr_aInoff (s : State) (u : Ctr) : (s.setCtr u).aInoff = s.aInoff := rfl
@[simp] theorem State.setCtr_aLen (s : State) (u : Ctr) : (s.setCtr u).aLen = s.aLen := rfl
@[simp] theorem State.setCtr_aOutoff (s : State) (u : Ctr) : (s.setCtr u).aOutoff = s.aOutoff := rfl
@[simp] theorem State.setCtr_aKeylen (s : State) (u : Ctr) : (s.setCtr u).aKeylen = s.aKeylen := rfl
@[simp] theorem State.setCtr_aIvlen (s : State) (u : Ctr) : (s.setCtr u).aIvlen = s.aIvlen := rfl
@[simp] theorem State.setCtr_aByte (s : State) (u : Ctr) : (s.setCtr u).aByte = s.aByte := rfl
@[simp] theorem State.setCtr_mem (s : State) (u : Ctr) : (s.setCtr u).mem = s.mem := rfl
@[simp] theorem State.setCtr_cfb (s : State) (u : Ctr) : (s.setCtr u).cfb = s.cfb := rfl
@[simp] theorem State.setCtr_ctr (s : State) (u : Ctr) : (s.setCtr u).ctr = u := rfl
@[simp] theorem State.setCtr_sip (s : State) (u : Ctr) : (s.setCtr u).sip = s.sip := rfl
@[simp] theorem State.setCtr_port (s : State) (u : Ctr) : (s.setCtr u).port = s.port := rfl
@[simp] theorem State.setCtr_readLog (s : State) (u : Ctr) : (s.setCtr u).readLog = s.readLog := rfl

/-! ## `State.setSip` -/

@[simp] theorem State.setSip_err (s : State) (u : Sip) : (s.setSip u).err = s.err := rfl
@[simp] theorem State.setSip_result0 (s : State) (u : Sip) : (s.setSip u).result0 = s.result0 := rfl
@[simp] theorem State.setSip_result1 (s : State) (u : Sip) : (s.setSip u).result1 = s.result1 := rfl
@[simp] theorem State.setSip_aInoff (s : State) (u : Sip) : (s.setSip u).aInoff = s.aInoff := rfl
@[simp] theorem State.setSip_aLen (s : State) (u : Sip) : (s.setSip u).aLen = s.aLen := rfl
@[simp] theorem State.setSip_aOutoff (s : State) (u : Sip) : (s.setSip u).aOutoff = s.aOutoff := rfl
@[simp] theorem State.setSip_aKeylen (s : State) (u : Sip) : (s.setSip u).aKeylen = s.aKeylen := rfl
@[simp] theorem State.setSip_aIvlen (s : State) (u : Sip) : (s.setSip u).aIvlen = s.aIvlen := rfl
@[simp] theorem State.setSip_aByte (s : State) (u : Sip) : (s.setSip u).aByte = s.aByte := rfl
@[simp] theorem State.setSip_mem (s : State) (u : Sip) : (s.setSip u).mem = s.mem := rfl
@[simp] theorem State.setSip_cfb (s : State) (u : Sip) : (s.setSip u).cfb = s.cfb := rfl
@[simp] theorem State.setSip_ctr (s : State) (u : Sip) : (s.setSip u).ctr = s.ctr := rfl
@[simp] theorem State.setSip_sip (s : State) (u : Sip) : (s.setSip u).sip = u := rfl
@[simp] theorem State.setSip_port (s : State) (u : Sip) : (s.setSip u).port = s.port := rfl
@[simp] theorem State.setSip_readLog (s : State) (u : Sip) : (s.setSip u).readLog = s.readLog := rfl

/-! ## `State.finish` -/

@[simp] theorem State.finish_err (s : State) (r0 r1 : Word) : (s.finish r0 r1).err = .ok := rfl
@[simp] theorem State.finish_result0 (s : State) (r0 r1 : Word) : (s.finish r0 r1).result0 = r0 := rfl
@[simp] theorem State.finish_result1 (s : State) (r0 r1 : Word) : (s.finish r0 r1).result1 = r1 := rfl
@[simp] theorem State.finish_aInoff (s : State) (r0 r1 : Word) : (s.finish r0 r1).aInoff = s.aInoff := rfl
@[simp] theorem State.finish_aLen (s : State) (r0 r1 : Word) : (s.finish r0 r1).aLen = s.aLen := rfl
@[simp] theorem State.finish_aOutoff (s : State) (r0 r1 : Word) : (s.finish r0 r1).aOutoff = s.aOutoff := rfl
@[simp] theorem State.finish_aKeylen (s : State) (r0 r1 : Word) : (s.finish r0 r1).aKeylen = s.aKeylen := rfl
@[simp] theorem State.finish_aIvlen (s : State) (r0 r1 : Word) : (s.finish r0 r1).aIvlen = s.aIvlen := rfl
@[simp] theorem State.finish_aByte (s : State) (r0 r1 : Word) : (s.finish r0 r1).aByte = s.aByte := rfl
@[simp] theorem State.finish_mem (s : State) (r0 r1 : Word) : (s.finish r0 r1).mem = s.mem := rfl
@[simp] theorem State.finish_cfb (s : State) (r0 r1 : Word) : (s.finish r0 r1).cfb = s.cfb := rfl
@[simp] theorem State.finish_ctr (s : State) (r0 r1 : Word) : (s.finish r0 r1).ctr = s.ctr := rfl
@[simp] theorem State.finish_sip (s : State) (r0 r1 : Word) : (s.finish r0 r1).sip = s.sip := rfl
@[simp] theorem State.finish_port (s : State) (r0 r1 : Word) : (s.finish r0 r1).port = s.port := rfl
@[simp] theorem State.finish_readLog (s : State) (r0 r1 : Word) : (s.finish r0 r1).readLog = s.readLog := rfl

/-! ## `State.raise` -/

@[simp] theorem State.raise_err (s : State) (code : Err) : (s.raise code).err = code := rfl
@[simp] theorem State.raise_result0 (s : State) (code : Err) : (s.raise code).result0 = 0#32 := rfl
@[simp] theorem State.raise_result1 (s : State) (code : Err) : (s.raise code).result1 = 0#32 := rfl
@[simp] theorem State.raise_aInoff (s : State) (code : Err) : (s.raise code).aInoff = s.aInoff := rfl
@[simp] theorem State.raise_aLen (s : State) (code : Err) : (s.raise code).aLen = s.aLen := rfl
@[simp] theorem State.raise_aOutoff (s : State) (code : Err) : (s.raise code).aOutoff = s.aOutoff := rfl
@[simp] theorem State.raise_aKeylen (s : State) (code : Err) : (s.raise code).aKeylen = s.aKeylen := rfl
@[simp] theorem State.raise_aIvlen (s : State) (code : Err) : (s.raise code).aIvlen = s.aIvlen := rfl
@[simp] theorem State.raise_aByte (s : State) (code : Err) : (s.raise code).aByte = s.aByte := rfl
@[simp] theorem State.raise_mem (s : State) (code : Err) : (s.raise code).mem = s.mem := rfl
@[simp] theorem State.raise_cfb (s : State) (code : Err) : (s.raise code).cfb = s.cfb := rfl
@[simp] theorem State.raise_ctr (s : State) (code : Err) : (s.raise code).ctr = s.ctr := rfl
@[simp] theorem State.raise_sip (s : State) (code : Err) : (s.raise code).sip = s.sip := rfl
@[simp] theorem State.raise_port (s : State) (code : Err) : (s.raise code).port = s.port := rfl
@[simp] theorem State.raise_readLog (s : State) (code : Err) : (s.raise code).readLog = s.readLog := rfl

/-! ## `State.record` -/

@[simp] theorem State.record_err (s : State) (v : Word) : (s.record v).err = s.err := rfl
@[simp] theorem State.record_result0 (s : State) (v : Word) : (s.record v).result0 = s.result0 := rfl
@[simp] theorem State.record_result1 (s : State) (v : Word) : (s.record v).result1 = s.result1 := rfl
@[simp] theorem State.record_aInoff (s : State) (v : Word) : (s.record v).aInoff = s.aInoff := rfl
@[simp] theorem State.record_aLen (s : State) (v : Word) : (s.record v).aLen = s.aLen := rfl
@[simp] theorem State.record_aOutoff (s : State) (v : Word) : (s.record v).aOutoff = s.aOutoff := rfl
@[simp] theorem State.record_aKeylen (s : State) (v : Word) : (s.record v).aKeylen = s.aKeylen := rfl
@[simp] theorem State.record_aIvlen (s : State) (v : Word) : (s.record v).aIvlen = s.aIvlen := rfl
@[simp] theorem State.record_aByte (s : State) (v : Word) : (s.record v).aByte = s.aByte := rfl
@[simp] theorem State.record_mem (s : State) (v : Word) : (s.record v).mem = s.mem := rfl
@[simp] theorem State.record_cfb (s : State) (v : Word) : (s.record v).cfb = s.cfb := rfl
@[simp] theorem State.record_ctr (s : State) (v : Word) : (s.record v).ctr = s.ctr := rfl
@[simp] theorem State.record_sip (s : State) (v : Word) : (s.record v).sip = s.sip := rfl
@[simp] theorem State.record_port (s : State) (v : Word) : (s.record v).port = s.port := rfl
@[simp] theorem State.record_readLog (s : State) (v : Word) : (s.record v).readLog = s.readLog ++ [v] := rfl

/-! ## `Cfb.reset` -/

@[simp] theorem Cfb.reset_sB (P : Params) (u : Cfb) : (Cfb.reset P u).sB = u.sB := rfl
@[simp] theorem Cfb.reset_enc (P : Params) (u : Cfb) : (Cfb.reset P u).enc = u.enc := rfl
@[simp] theorem Cfb.reset_keyed (P : Params) (u : Cfb) : (Cfb.reset P u).keyed = u.keyed := rfl
@[simp] theorem Cfb.reset_inited (P : Params) (u : Cfb) : (Cfb.reset P u).inited = u.inited := rfl
@[simp] theorem Cfb.reset_key (P : Params) (u : Cfb) : (Cfb.reset P u).key = u.key := rfl
@[simp] theorem Cfb.reset_IV (P : Params) (u : Cfb) : (Cfb.reset P u).IV = u.IV := rfl
@[simp] theorem Cfb.reset_V (P : Params) (u : Cfb) : (Cfb.reset P u).V = u.IV := rfl
@[simp] theorem Cfb.reset_FB (P : Params) (u : Cfb) : (Cfb.reset P u).FB = zeros u.sB := rfl
@[simp] theorem Cfb.reset_cf (P : Params) (u : Cfb) : (Cfb.reset P u).cf = 0 := rfl
@[simp] theorem Cfb.reset_KB (P : Params) (u : Cfb) : (Cfb.reset P u).KB = u.KB := rfl
@[simp] theorem Cfb.reset_ko (P : Params) (u : Cfb) : (Cfb.reset P u).ko = P.P_B := rfl

/-! ## `Cfb.generate` -/

@[simp] theorem Cfb.generate_sB (P : Params) (u : Cfb) : (Cfb.generate P u).sB = u.sB := rfl
@[simp] theorem Cfb.generate_enc (P : Params) (u : Cfb) : (Cfb.generate P u).enc = u.enc := rfl
@[simp] theorem Cfb.generate_keyed (P : Params) (u : Cfb) : (Cfb.generate P u).keyed = u.keyed := rfl
@[simp] theorem Cfb.generate_inited (P : Params) (u : Cfb) : (Cfb.generate P u).inited = u.inited := rfl
@[simp] theorem Cfb.generate_key (P : Params) (u : Cfb) : (Cfb.generate P u).key = u.key := rfl
@[simp] theorem Cfb.generate_IV (P : Params) (u : Cfb) : (Cfb.generate P u).IV = u.IV := rfl
@[simp] theorem Cfb.generate_V (P : Params) (u : Cfb) : (Cfb.generate P u).V = u.V := rfl
@[simp] theorem Cfb.generate_FB (P : Params) (u : Cfb) : (Cfb.generate P u).FB = u.FB := rfl
@[simp] theorem Cfb.generate_cf (P : Params) (u : Cfb) : (Cfb.generate P u).cf = u.cf := rfl
@[simp] theorem Cfb.generate_KB (P : Params) (u : Cfb) : (Cfb.generate P u).KB = P.E u.key u.V := rfl
@[simp] theorem Cfb.generate_ko (P : Params) (u : Cfb) : (Cfb.generate P u).ko = u.ko := rfl

/-! ## `Ctr.reset` -/

@[simp] theorem Ctr.reset_keyed (P : Params) (u : Ctr) : (Ctr.reset P u).keyed = u.keyed := rfl
@[simp] theorem Ctr.reset_inited (P : Params) (u : Ctr) : (Ctr.reset P u).inited = u.inited := rfl
@[simp] theorem Ctr.reset_key (P : Params) (u : Ctr) : (Ctr.reset P u).key = u.key := rfl
@[simp] theorem Ctr.reset_IV (P : Params) (u : Ctr) : (Ctr.reset P u).IV = u.IV := rfl
@[simp] theorem Ctr.reset_CTR (P : Params) (u : Ctr) : (Ctr.reset P u).CTR = u.IV := rfl
@[simp] theorem Ctr.reset_KB (P : Params) (u : Ctr) : (Ctr.reset P u).KB = u.KB := rfl
@[simp] theorem Ctr.reset_ko (P : Params) (u : Ctr) : (Ctr.reset P u).ko = P.P_B := rfl

/-! ## `Ctr.generate` -/

@[simp] theorem Ctr.generate_keyed (P : Params) (u : Ctr) : (Ctr.generate P u).keyed = u.keyed := rfl
@[simp] theorem Ctr.generate_inited (P : Params) (u : Ctr) : (Ctr.generate P u).inited = u.inited := rfl
@[simp] theorem Ctr.generate_key (P : Params) (u : Ctr) : (Ctr.generate P u).key = u.key := rfl
@[simp] theorem Ctr.generate_IV (P : Params) (u : Ctr) : (Ctr.generate P u).IV = u.IV := rfl
@[simp] theorem Ctr.generate_CTR (P : Params) (u : Ctr) : (Ctr.generate P u).CTR = inc u.CTR := rfl
@[simp] theorem Ctr.generate_KB (P : Params) (u : Ctr) : (Ctr.generate P u).KB = P.E u.key u.CTR := rfl
@[simp] theorem Ctr.generate_ko (P : Params) (u : Ctr) : (Ctr.generate P u).ko = u.ko := rfl

/-! ## `Sip.reset` -/

@[simp] theorem Sip.reset_c (u : Sip) : (Sip.reset u).c = u.c := rfl
@[simp] theorem Sip.reset_d (u : Sip) : (Sip.reset u).d = u.d := rfl
@[simp] theorem Sip.reset_inited (u : Sip) : (Sip.reset u).inited = u.inited := rfl
@[simp] theorem Sip.reset_k0 (u : Sip) : (Sip.reset u).k0 = u.k0 := rfl
@[simp] theorem Sip.reset_k1 (u : Sip) : (Sip.reset u).k1 = u.k1 := rfl
@[simp] theorem Sip.reset_v0 (u : Sip) : (Sip.reset u).v0 = u.k0 ^^^ C0 := rfl
@[simp] theorem Sip.reset_v1 (u : Sip) : (Sip.reset u).v1 = u.k1 ^^^ C1 := rfl
@[simp] theorem Sip.reset_v2 (u : Sip) : (Sip.reset u).v2 = u.k0 ^^^ C2 := rfl
@[simp] theorem Sip.reset_v3 (u : Sip) : (Sip.reset u).v3 = u.k1 ^^^ C3 := rfl
@[simp] theorem Sip.reset_m (u : Sip) : (Sip.reset u).m = 0#64 := rfl
@[simp] theorem Sip.reset_wp (u : Sip) : (Sip.reset u).wp = 0 := rfl
@[simp] theorem Sip.reset_wc (u : Sip) : (Sip.reset u).wc = 0#64 := rfl

/-! ## `Cfb.hooks` -/

@[simp] theorem Cfb.hooks_ko (P : Params) (u : Cfb) : (Cfb.hooks P).ko u = u.ko := rfl
@[simp] theorem Cfb.hooks_KB (P : Params) (u : Cfb) : (Cfb.hooks P).KB u = u.KB := rfl
@[simp] theorem Cfb.hooks_generate (P : Params) (u : Cfb) : (Cfb.hooks P).generate u = u.generate P := rfl
@[simp] theorem Cfb.hooks_feedback (P : Params) (u : Cfb) (xs ys : List Byte) :
    (Cfb.hooks P).feedback u xs ys = u.feedback xs ys := rfl
@[simp] theorem Cfb.hooks_setKo_sB (P : Params) (u : Cfb) (n : Nat) : ((Cfb.hooks P).setKo u n).sB = u.sB := rfl
@[simp] theorem Cfb.hooks_setKo_enc (P : Params) (u : Cfb) (n : Nat) : ((Cfb.hooks P).setKo u n).enc = u.enc := rfl
@[simp] theorem Cfb.hooks_setKo_keyed (P : Params) (u : Cfb) (n : Nat) : ((Cfb.hooks P).setKo u n).keyed = u.keyed := rfl
@[simp] theorem Cfb.hooks_setKo_inited (P : Params) (u : Cfb) (n : Nat) : ((Cfb.hooks P).setKo u n).inited = u.inited := rfl
@[simp] theorem Cfb.hooks_setKo_key (P : Params) (u : Cfb) (n : Nat) : ((Cfb.hooks P).setKo u n).key = u.key := rfl
@[simp] theorem Cfb.hooks_setKo_IV (P : Params) (u : Cfb) (n : Nat) : ((Cfb.hooks P).setKo u n).IV = u.IV := rfl
@[simp] theorem Cfb.hooks_setKo_V (P : Params) (u : Cfb) (n : Nat) : ((Cfb.hooks P).setKo u n).V = u.V := rfl
@[simp] theorem Cfb.hooks_setKo_FB (P : Params) (u : Cfb) (n : Nat) : ((Cfb.hooks P).setKo u n).FB = u.FB := rfl
@[simp] theorem Cfb.hooks_setKo_cf (P : Params) (u : Cfb) (n : Nat) : ((Cfb.hooks P).setKo u n).cf = u.cf := rfl
@[simp] theorem Cfb.hooks_setKo_KB (P : Params) (u : Cfb) (n : Nat) : ((Cfb.hooks P).setKo u n).KB = u.KB := rfl
@[simp] theorem Cfb.hooks_setKo_ko (P : Params) (u : Cfb) (n : Nat) : ((Cfb.hooks P).setKo u n).ko = n := rfl

/-! ## `Ctr.hooks` -/

@[simp] theorem Ctr.hooks_ko (P : Params) (u : Ctr) : (Ctr.hooks P).ko u = u.ko := rfl
@[simp] theorem Ctr.hooks_KB (P : Params) (u : Ctr) : (Ctr.hooks P).KB u = u.KB := rfl
@[simp] theorem Ctr.hooks_generate (P : Params) (u : Ctr) : (Ctr.hooks P).generate u = u.generate P := rfl
@[simp] theorem Ctr.hooks_feedback (P : Params) (u : Ctr) (xs ys : List Byte) :
    (Ctr.hooks P).feedback u xs ys = u.feedback xs ys := rfl
@[simp] theorem Ctr.hooks_setKo_keyed (P : Params) (u : Ctr) (n : Nat) : ((Ctr.hooks P).setKo u n).keyed = u.keyed := rfl
@[simp] theorem Ctr.hooks_setKo_inited (P : Params) (u : Ctr) (n : Nat) : ((Ctr.hooks P).setKo u n).inited = u.inited := rfl
@[simp] theorem Ctr.hooks_setKo_key (P : Params) (u : Ctr) (n : Nat) : ((Ctr.hooks P).setKo u n).key = u.key := rfl
@[simp] theorem Ctr.hooks_setKo_IV (P : Params) (u : Ctr) (n : Nat) : ((Ctr.hooks P).setKo u n).IV = u.IV := rfl
@[simp] theorem Ctr.hooks_setKo_CTR (P : Params) (u : Ctr) (n : Nat) : ((Ctr.hooks P).setKo u n).CTR = u.CTR := rfl
@[simp] theorem Ctr.hooks_setKo_KB (P : Params) (u : Ctr) (n : Nat) : ((Ctr.hooks P).setKo u n).KB = u.KB := rfl
@[simp] theorem Ctr.hooks_setKo_ko (P : Params) (u : Ctr) (n : Nat) : ((Ctr.hooks P).setKo u n).ko = n := rfl

/-! ## `cfbUnit` -/

@[simp] theorem cfbUnit_hooks (P : Params) : (cfbUnit P).hooks = Cfb.hooks P := rfl
@[simp] theorem cfbUnit_get (P : Params) (s : State) : (cfbUnit P).get s = s.cfb := rfl
@[simp] theorem cfbUnit_set (P : Params) (s : State) (u : Cfb) : (cfbUnit P).set s u = s.setCfb u := rfl
@[simp] theorem cfbUnit_inited (P : Params) (u : Cfb) : (cfbUnit P).inited u = u.inited := rfl

/-! ## `ctrUnit` -/

@[simp] theorem ctrUnit_hooks (P : Params) : (ctrUnit P).hooks = Ctr.hooks P := rfl
@[simp] theorem ctrUnit_get (P : Params) (s : State) : (ctrUnit P).get s = s.ctr := rfl
@[simp] theorem ctrUnit_set (P : Params) (s : State) (u : Ctr) : (ctrUnit P).set s u = s.setCtr u := rfl
@[simp] theorem ctrUnit_inited (P : Params) (u : Ctr) : (ctrUnit P).inited u = u.inited := rfl

/-! ## The fetch word -/

@[simp] theorem State.withFetchWord_port (s : State) (nbits w : Nat) :
    (s.withFetchWord nbits w).port = .write CMD 4 (BitVec.ofNat 32 (w % 2 ^ nbits)) :: s.port := rfl

end Sys2Proof.Machine
end

