-- ==== Sys2Proof/Laws/Memory.lean ====
section
/-! SUPPORT. The laws of the memory: a read after a store, stores elsewhere, runs of bytes, and the canonical form. -/

namespace Sys2Proof.Machine

/-! ## The fixed numbers, in one spelling (20_memory R62, 10_state R21, 00_scope R11) -/

theorem KEY_BASE_eq : KEY_BASE = 0x100 := rfl
theorem IV_BASE_eq : IV_BASE = 0x200 := rfl
theorem NAME_BASE_eq : NAME_BASE = 0x300 := rfl
theorem IN_BASE_eq : IN_BASE = 0x1000 := rfl
theorem OUT_BASE_eq : OUT_BASE = 0x2000 := rfl
theorem P_BUF_eq : P_BUF = 4096 := rfl
theorem KEY_BUF_SIZE_eq : KEY_BUF_SIZE = 256 := rfl
theorem WINDOW_SIZE_eq : WINDOW_SIZE = 0x3000 := rfl
theorem CMD_eq : CMD = 0 := rfl
theorem STATUS_eq : STATUS = 0x04 := rfl
theorem RESULT0_eq : RESULT0 = 0x08 := rfl
theorem RESULT1_eq : RESULT1 = 0x0C := rfl
theorem A_INOFF_eq : A_INOFF = 0x10 := rfl
theorem A_LEN_eq : A_LEN = 0x14 := rfl
theorem A_OUTOFF_eq : A_OUTOFF = 0x18 := rfl
theorem A_KEYLEN_eq : A_KEYLEN = 0x1C := rfl
theorem A_IVLEN_eq : A_IVLEN = 0x20 := rfl
theorem A_BYTE_eq : A_BYTE = 0x24 := rfl
theorem CFGINFO_eq : CFGINFO = 0x28 := rfl

/-! ## One byte -/

theorem Memory.lookup_store (m : Memory) (x y : Nat) (v : Byte) :
    (Memory.store m x v).lookup y = if y = x then some v else Memory.lookup m y := by
  induction m with
  | nil => rfl
  | cons c m ih =>
    obtain ⟨a, b⟩ := c
    simp only [Memory.store]
    split_ifs with h1 h2 h3 <;> simp_all [Memory.lookup]

theorem Memory.read_store (m : Memory) (x y : Nat) (v : Byte) :
    (Memory.store m x v).read y = if y = x then v else Memory.read m y := by
  unfold Memory.read
  rw [Memory.lookup_store]
  split_ifs <;> rfl

@[simp] theorem Memory.read_store_self (m : Memory) (x : Nat) (v : Byte) : (Memory.store m x v).read x = v := by
  simp [Memory.read_store]

theorem Memory.read_store_ne (m : Memory) {x y : Nat} (v : Byte) (h : y ≠ x) :
    (Memory.store m x v).read y = Memory.read m y := by
  simp [Memory.read_store, h]

/-! ## The canonical form -/

theorem Memory.mem_store {m : Memory} {x : Nat} {v : Byte} {c : Host.Cell} (h : c ∈ Memory.store m x v) :
    c = (x, v) ∨ c ∈ m := by
  induction m with
  | nil => simpa [Memory.store] using h
  | cons d m ih =>
    obtain ⟨a, b⟩ := d
    simp only [Memory.store] at h
    split_ifs at h <;> simp_all only [List.mem_cons]
    · tauto
    · rcases h with h | h
      · exact Or.inr (Or.inl h)
      · exact (ih h).imp id Or.inr

/-- A store at a buffer's offset keeps the canonical form. -/
theorem Memory.store_wf {m : Memory} (hm : m.wf) {x : Nat} (hx : isBufferOffset x = true) (v : Byte) :
    (Memory.store m x v).wf := by
  refine ⟨?_, fun c hc => (Memory.mem_store hc).elim (fun h => h ▸ hx) (hm.2 c)⟩
  have hp := hm.1
  clear hm
  induction m with
  | nil => simp [Memory.store]
  | cons d m ih =>
    obtain ⟨a, b⟩ := d
    obtain ⟨ha, hp⟩ := List.pairwise_cons.mp hp
    simp only [Memory.store]
    split_ifs with h1 h2
    · refine List.pairwise_cons.mpr ⟨fun c hc => ?_, List.pairwise_cons.mpr ⟨ha, hp⟩⟩
      rcases List.mem_cons.mp hc with rfl | hc
      · exact h1
      · exact lt_trans h1 (ha c hc)
    · exact List.pairwise_cons.mpr ⟨fun c hc => h2 ▸ ha c hc, hp⟩
    · refine List.pairwise_cons.mpr ⟨fun c hc => ?_, ih hp⟩
      rcases Memory.mem_store hc with rfl | hc
      · show a < x
        omega
      · exact ha c hc

theorem Memory.nil_wf : Memory.wf [] := ⟨List.Pairwise.nil, fun _ h => absurd h List.not_mem_nil⟩

/-! ## Runs of bytes -/

@[simp] theorem Memory.readBytes_length (m : Memory) (addr n : Nat) : (m.readBytes addr n).length = n := by
  simp [Memory.readBytes]

/-- What every byte reads as after a run is written: the run's byte inside it, the old byte elsewhere. -/
theorem Memory.read_writeBytes (bs : List Byte) (m : Memory) (addr y : Nat) :
    (Memory.writeBytes m addr bs).read y =
      if addr ≤ y ∧ y < addr + bs.length then bs.getD (y - addr) 0#8 else Memory.read m y := by
  induction bs generalizing m addr with
  | nil => simp [Memory.writeBytes]
  | cons b bs ih =>
    rw [Memory.writeBytes, ih, Memory.read_store]
    have hc : (addr ≤ y ∧ y < addr + (b :: bs).length) ↔ y = addr ∨ (addr + 1 ≤ y ∧ y < addr + 1 + bs.length) := by
      simp only [List.length_cons]
      omega
    by_cases hr : addr + 1 ≤ y ∧ y < addr + 1 + bs.length
    · have : y - addr = y - (addr + 1) + 1 := by omega
      rw [if_pos hr, if_pos (hc.mpr (Or.inr hr)), this]
      simp
    · by_cases hy : y = addr
      · subst hy
        rw [if_neg hr, if_pos rfl, if_pos (hc.mpr (Or.inl rfl))]
        simp
      · rw [if_neg hr, if_neg hy, if_neg fun h => (hc.mp h).elim hy hr]

/-- Writing a run inside the buffers keeps the canonical form. -/
theorem Memory.writeBytes_wf (bs : List Byte) {m : Memory} (hm : m.wf) (addr : Nat)
    (hb : ∀ i, i < bs.length → isBufferOffset (addr + i) = true) : (Memory.writeBytes m addr bs).wf := by
  induction bs generalizing m addr with
  | nil => exact hm
  | cons b bs ih =>
    refine ih (Memory.store_wf hm (hb 0 (by simp)) b) (addr + 1) fun i hi => ?_
    have := hb (i + 1) (by simpa using hi)
    rwa [show addr + (i + 1) = addr + 1 + i by omega] at this

/-! ## Where the buffers lie (20_memory R62) -/

theorem isBufferOffset_iff (x : Nat) :
    isBufferOffset x = true ↔ (0x0100 ≤ x ∧ x < 0x0400) ∨ (0x1000 ≤ x ∧ x < 0x3000) := by
  unfold isBufferOffset areaOf
  split_ifs <;> simp [Area.isBuffer] <;> omega

end Sys2Proof.Machine
end

