-- ==== Sys2Proof/Laws/Ops.lean ====
section
/-! SUPPORT. What each shared operation can do, said once: the meaning behind each arm of exec, the outcomes of the
command forms and of the key checks, the engine's equations, the admission of an access and the outcomes of a step. -/

namespace Sys2Proof.Machine

/-! ## The arms of exec -/

@[simp] theorem exec_cfbCfg (immA : Byte) (s : State) :
    exec (.cfbCfg immA) s = .next (cfbCfg Config.params immA s) := rfl
@[simp] theorem exec_cfbInit (enc kp ivp : Bool) (s : State) :
    exec (.cfbInit enc kp ivp) s = .next (cfbInit Config.params enc kp ivp s) := rfl
@[simp] theorem exec_cfbProc (s : State) :
    exec .cfbProc s = .next (proc Config.params (cfbUnit Config.params) s) := rfl
@[simp] theorem exec_cfbProcb (s : State) :
    exec .cfbProcb s = .next (procByte Config.params (cfbUnit Config.params) s) := rfl
@[simp] theorem exec_cfbFinal (s : State) : exec .cfbFinal s = .next (finalCommand (cfbUnit Config.params) s) := rfl
@[simp] theorem exec_cfbReset (s : State) :
    exec .cfbReset s = .next ((s.setCfb (s.cfb.reset Config.params)).finish 0#32 0#32) := rfl
@[simp] theorem exec_cfbName (s : State) : exec .cfbName s = .next (nameCommand (s.cfb.name Config.params) s) := rfl
@[simp] theorem exec_cfbUosz (s : State) : exec .cfbUosz s = .next (sizeQuery s) := rfl
@[simp] theorem exec_cfbOsz (s : State) : exec .cfbOsz s = .next (sizeQuery s) := rfl
@[simp] theorem exec_cfbAadb (s : State) : exec .cfbAadb s = .next (aadCommand s) := rfl
@[simp] theorem exec_cfbAadn (s : State) : exec .cfbAadn s = .next (aadCommand s) := rfl
@[simp] theorem exec_ctrCfg (s : State) : exec .ctrCfg s = .next (ctrCfg Config.params s) := rfl
@[simp] theorem exec_ctrInit (enc kp ivp : Bool) (s : State) :
    exec (.ctrInit enc kp ivp) s = .next (ctrInit Config.params enc kp ivp s) := rfl
@[simp] theorem exec_ctrProc (s : State) :
    exec .ctrProc s = .next (proc Config.params (ctrUnit Config.params) s) := rfl
@[simp] theorem exec_ctrProcb (s : State) :
    exec .ctrProcb s = .next (procByte Config.params (ctrUnit Config.params) s) := rfl
@[simp] theorem exec_ctrFinal (s : State) : exec .ctrFinal s = .next (finalCommand (ctrUnit Config.params) s) := rfl
@[simp] theorem exec_ctrReset (s : State) :
    exec .ctrReset s = .next ((s.setCtr (s.ctr.reset Config.params)).finish 0#32 0#32) := rfl
@[simp] theorem exec_ctrName (s : State) : exec .ctrName s = .next (nameCommand (Ctr.name Config.params) s) := rfl
@[simp] theorem exec_ctrUosz (s : State) : exec .ctrUosz s = .next (sizeQuery s) := rfl
@[simp] theorem exec_ctrOsz (s : State) : exec .ctrOsz s = .next (sizeQuery s) := rfl
@[simp] theorem exec_ctrAadb (s : State) : exec .ctrAadb s = .next (aadCommand s) := rfl
@[simp] theorem exec_ctrAadn (s : State) : exec .ctrAadn s = .next (aadCommand s) := rfl
@[simp] theorem exec_sipCfg (immA immB : Byte) (s : State) :
    exec (.sipCfg immA immB) s = .next (sipCfg immA immB s) := rfl
@[simp] theorem exec_sipInit (kp ivp : Bool) (s : State) : exec (.sipInit kp ivp) s = .next (sipInit kp ivp s) := rfl
@[simp] theorem exec_sipUpdn (s : State) : exec .sipUpdn s = .next (sipUpdn s) := rfl
@[simp] theorem exec_sipUpd (s : State) : exec .sipUpd s = .next (sipUpd s) := rfl
@[simp] theorem exec_sipFin (s : State) : exec .sipFin s = .next (sipFin s) := rfl
@[simp] theorem exec_sipReset (s : State) : exec .sipReset s = .next ((s.setSip s.sip.reset).finish 0#32 0#32) := rfl
@[simp] theorem exec_sipName (s : State) : exec .sipName s = .next (nameCommand s.sip.name s) := rfl
@[simp] theorem exec_sipFin64 (s : State) : exec .sipFin64 s = .next (sipFin64 s) := rfl
@[simp] theorem exec_sipMacsz (s : State) : exec .sipMacsz s = .next (s.finish 8#32 0#32) := rfl

/-! ## Command forms -/

/-- Every outcome of PROC (40_engine R139), with the checks that lead to it. -/
theorem proc_cases {U : Type} (P : Params) (K : KeystreamUnit U) (s : State) :
    (K.inited (K.get s) = false ∧ proc P K s = s.raise .illegalState) ∨
    (K.inited (K.get s) = true ∧ ¬ s.inOff + s.len ≤ P_BUF ∧ proc P K s = s.raise .dataLength) ∨
    (K.inited (K.get s) = true ∧ s.inOff + s.len ≤ P_BUF ∧ ¬ s.outOff + s.len ≤ P_BUF ∧
      proc P K s = s.raise .outputLength) ∨
    (K.inited (K.get s) = true ∧ s.inOff + s.len ≤ P_BUF ∧ s.outOff + s.len ≤ P_BUF ∧
      proc P K s =
        ((K.set s (engine P K.hooks (K.get s) s.inputBytes).1).writeMem (OUT_BASE + s.outOff)
          (engine P K.hooks (K.get s) s.inputBytes).2).finish s.aLen 0#32) := by
  unfold proc fits
  by_cases h : K.inited (K.get s) = true <;> by_cases h1 : s.inOff + s.len ≤ P_BUF <;>
    by_cases h2 : s.outOff + s.len ≤ P_BUF <;> simp [h, h1, h2]

/-- Every outcome of PROCB (40_engine R140). -/
theorem procByte_cases {U : Type} (P : Params) (K : KeystreamUnit U) (s : State) :
    (K.inited (K.get s) = false ∧ procByte P K s = s.raise .illegalState) ∨
    (K.inited (K.get s) = true ∧
      procByte P K s =
        (K.set s (engine P K.hooks (K.get s) [s.aByte]).1).finish
          (BitVec.ofNat 32 (leInt (engine P K.hooks (K.get s) [s.aByte]).2)) 0#32) := by
  unfold procByte
  by_cases h : K.inited (K.get s) = true <;> simp [h]

/-- Every outcome of FINAL (40_engine R141). -/
theorem finalCommand_cases {U : Type} (K : KeystreamUnit U) (s : State) :
    (K.inited (K.get s) = false ∧ finalCommand K s = s.raise .illegalState) ∨
    (K.inited (K.get s) = true ∧ finalCommand K s = s.finish 0#32 0#32) := by
  unfold finalCommand
  by_cases h : K.inited (K.get s) = true <;> simp [h]

/-- Every outcome of the key checks of CFB.INIT and CTR.INIT (41_cfb R152, 42_ctr R182). -/
theorem keyCheck_cases (P : Params) (kp keyed : Bool) (s : State) :
    (keyCheck P kp keyed s = some .invalidParameter ∧ kp = true ∧
      (256 < s.keyLen ∨ P.P_KEY_OK s.keyOperand = false)) ∨
    (keyCheck P kp keyed s = some .illegalState ∧ kp = false ∧ keyed = false) ∨
    (keyCheck P kp keyed s = none ∧ kp = true ∧ s.keyLen ≤ 256 ∧ P.P_KEY_OK s.keyOperand = true) ∨
    (keyCheck P kp keyed s = none ∧ kp = false ∧ keyed = true) := by
  unfold keyCheck KEY_BUF_SIZE
  by_cases h1 : 256 < s.keyLen <;> cases kp <;> cases keyed <;> cases h2 : P.P_KEY_OK s.keyOperand <;>
    simp [h1] <;> omega

/-! ## The engine (40_engine R131) -/

theorem engineLoop_nil {U : Type} (P : Params) (H : Hooks U) (u : U) (rx ry : List Byte) :
    engineLoop P H u rx ry [] = (H.feedback u rx ry, []) := rfl

/-- A byte at an exhausted cursor: the run is flushed and the block regenerated first. -/
theorem engineLoop_exhausted {U : Type} (P : Params) (H : Hooks U) (u : U) (rx ry : List Byte) (x : Byte)
    (xs : List Byte) (h : H.ko u = P.P_B) :
    engineLoop P H u rx ry (x :: xs) =
      let v := H.setKo (H.generate (H.feedback u rx ry)) 0
      let r := engineLoop P H (H.setKo v (H.ko v + 1)) [x] [x ^^^ H.keyByte v] xs
      (r.1, (x ^^^ H.keyByte v) :: r.2) := by
  rw [engineLoop, if_pos h]

/-- A byte at a cursor inside the block: the run grows by it. -/
theorem engineLoop_inside {U : Type} (P : Params) (H : Hooks U) (u : U) (rx ry : List Byte) (x : Byte)
    (xs : List Byte) (h : H.ko u ≠ P.P_B) :
    engineLoop P H u rx ry (x :: xs) =
      let r := engineLoop P H (H.setKo u (H.ko u + 1)) (rx ++ [x]) (ry ++ [x ^^^ H.keyByte u]) xs
      (r.1, (x ^^^ H.keyByte u) :: r.2) := by
  rw [engineLoop, if_neg h]

theorem engineLoop_length {U : Type} (P : Params) (H : Hooks U) (xs : List Byte) (u : U) (rx ry : List Byte) :
    (engineLoop P H u rx ry xs).2.length = xs.length := by
  induction xs generalizing u rx ry with
  | nil => rfl
  | cons x xs ih =>
    by_cases h : H.ko u = P.P_B
    · rw [engineLoop_exhausted P H u rx ry x xs h]
      simp [ih]
    · rw [engineLoop_inside P H u rx ry x xs h]
      simp [ih]

/-- The engine gives as many bytes as it takes. -/
@[simp] theorem engine_length {U : Type} (P : Params) (H : Hooks U) (u : U) (xs : List Byte) :
    (engine P H u xs).2.length = xs.length := engineLoop_length P H xs u [] []

/-! ## Lengths of byte strings -/

@[simp] theorem zeros_length (n : Nat) : (zeros n).length = n := by simp [zeros]

@[simp] theorem E_length (P : Params) (key blk : List Byte) : (P.E key blk).length = P.P_B := by simp [Params.E]

@[simp] theorem toBe_length (n x : Nat) : (toBe n x).length = n := by simp [toBe]

@[simp] theorem inc_length (X : List Byte) : (inc X).length = X.length := by simp [inc]

@[simp] theorem toLe64_length (x : DWord) : (toLe64 x).length = 8 := by simp [toLe64]

@[simp] theorem wordBytes_length (n : Nat) (v : Word) : (wordBytes n v).length = n := by simp [wordBytes]

/-- A short IV is padded to exactly one block (41_cfb R151). -/
theorem padIv_length (P : Params) (iv : List Byte) (h : iv.length ≤ P.P_B) : (padIv P iv).length = P.P_B := by
  simp [padIv]
  omega

theorem P_B_pos (P : Params) : 1 ≤ P.P_B := by simp [Params.P_B]

theorem P_B_le (P : Params) : P.P_B ≤ 255 := by
  have := P.blockIndex.isLt
  simp only [Params.P_B]
  omega

/-! ## The argument registers as numbers, in one spelling -/

@[simp] theorem State.inOff_eq (s : State) : s.inOff = s.aInoff.toNat := rfl
@[simp] theorem State.len_eq (s : State) : s.len = s.aLen.toNat := rfl
@[simp] theorem State.outOff_eq (s : State) : s.outOff = s.aOutoff.toNat := rfl
@[simp] theorem State.keyLen_eq (s : State) : s.keyLen = s.aKeylen.toNat := rfl
@[simp] theorem State.ivLen_eq (s : State) : s.ivLen = s.aIvlen.toNat := rfl
@[simp] theorem immediate_eq (imm : Byte) : immediate imm = imm.toNat := rfl

/-! ## Host accesses and steps -/

/-- A step with an access waiting performs it on the state whose port no longer holds it. -/
theorem step_cons {s : State} {a : Access} {rest : List Access} (h : s.port = a :: rest) :
    step s = perform a { s with port := rest } := by
  simp only [step, servePort, h]

/-- Every outcome of a step: it waits, performs a read, runs a command, performs another write, faults or refuses. -/
theorem step_cases (s : State) :
    (s.port = [] ∧ step s = .next s) ∨
    (∃ off n rest, s.port = .read off n :: rest ∧ admission off n = .admitted ∧
      step s = .next (({ s with port := rest } : State).record
        (({ s with port := rest } : State).hostRead Config.params off n))) ∨
    (∃ n w rest, s.port = .write CMD n w :: rest ∧ admission CMD n = .admitted ∧
      step s = runCommand w { s with port := rest }) ∨
    (∃ off n v rest, s.port = .write off n v :: rest ∧ off ≠ CMD ∧ admission off n = .admitted ∧
      step s = .next (({ s with port := rest } : State).hostWrite off n v)) ∨
    step s = .fault .busError ∨ step s = .refused .outsideWindow := by
  unfold step servePort
  cases hp : s.port with
  | nil => simp
  | cons a rest =>
    cases a with
    | read off n =>
      cases ha : admission off n <;> simp [perform, ha]
    | write off n v =>
      cases ha : admission off n with
      | admitted =>
        by_cases hc : off = CMD
        · subst hc
          simp [perform, ha]
        · simp [perform, ha, hc]
      | busError => simp [perform, ha]
      | outside => simp [perform, ha]

/-- Every outcome of a command word: its command's meaning, or ERR_ILLEGAL (40_engine R120). -/
theorem runCommand_cases (w : Word) (s : State) :
    (∃ i, decode w = .ok i ∧ runCommand w s = exec i s) ∨
    (∃ e, decode w = .error e ∧ runCommand w s = .next (s.raise .illegal)) := by
  unfold runCommand
  cases h : decode w with
  | ok i => exact Or.inl ⟨i, rfl, rfl⟩
  | error e => exact Or.inr ⟨e, rfl, rfl⟩

end Sys2Proof.Machine
end

