-- ==== Sys2Proof/Laws/Bus.lean ====
section
/-! SUPPORT. What the host's accesses can do, said once: the areas of the map, the admission of an access inside the window,
and a write to the buffers; and what staging a byte leaves alone. -/

namespace Sys2Proof.Machine

/-- The width rule of 20_memory R67 as a proposition. -/
theorem widthAdmitted_iff (off n : Nat) :
    widthAdmitted off n = true ↔
      (if off < 0x100 then n = 4 ∧ off % 4 = 0 else n = 1 ∨ (n = 2 ∧ off % 2 = 0) ∨ (n = 4 ∧ off % 4 = 0)) := by
  simp only [widthAdmitted, inRegisterArea, decide_eq_true_eq]
  split_ifs <;> simp

/-- The bytes of an access of an admitted width lie in one area of the map of 20_memory R62. -/
theorem areaOf_add_of_widthAdmitted {off n : Nat} (h : widthAdmitted off n = true) {i : Nat} (hi : i < n) :
    areaOf (off + i) = areaOf off := by
  have key : ∀ T, T % 4 = 0 → (off + i < T ↔ off < T) := by
    intro T hT
    rw [widthAdmitted_iff] at h
    split_ifs at h <;> omega
  simp only [areaOf, key 0x2C rfl, key 0x100 rfl, key 0x200 rfl, key 0x300 rfl, key 0x400 rfl, key 0x1000 rfl,
    key 0x2000 rfl, key 0x3000 rfl]

/-- Inside the window the width alone decides whether an access is admitted. -/
theorem admission_inside {off : Nat} (n : Nat) (h : off < 0x3000) :
    admission off n = if widthAdmitted off n = true then .admitted else .busError := by
  have h' : ¬ WINDOW_SIZE ≤ off := by
    rw [WINDOW_SIZE_eq]
    omega
  rw [admission, if_neg h']
  by_cases hw : widthAdmitted off n = true
  · have h0 : 0 < n := by
      have hw' := (widthAdmitted_iff off n).1 hw
      split_ifs at hw' <;> omega
    have hone : withinOneArea off n = true := by
      rw [withinOneArea, decide_eq_true_eq, show off + n - 1 = off + (n - 1) by omega,
        areaOf_add_of_widthAdmitted hw (by omega)]
    simp [hw, hone]
  · simp [hw]

/-- Above the register area, a write stores its bytes in KEY_BUF, IV_BUF, IN_BUF and OUT_BUF and is ignored elsewhere. -/
theorem State.hostWrite_buffer (s : State) {off : Nat} (n : Nat) (v : Word) (h1 : 0x100 ≤ off) (h2 : off < 0x3000) :
    s.hostWrite off n v = if off < 0x300 ∨ 0x1000 ≤ off then s.writeMem off (wordBytes n v) else s := by
  unfold State.hostWrite areaOf inRegisterArea
  rw [if_neg (by simp; omega), if_neg (by omega), if_neg (by omega)]
  by_cases a : off < 0x200
  · rw [if_pos a]
    simp [Area.hostWritable]
    omega
  rw [if_neg a]
  by_cases b : off < 0x300
  · rw [if_pos b]
    simp [Area.hostWritable]
    omega
  rw [if_neg b]
  by_cases c : off < 0x400
  · rw [if_pos c]
    simp [Area.hostWritable]
    omega
  rw [if_neg c]
  by_cases d : off < 0x1000
  · rw [if_pos d]
    simp [Area.hostWritable]
    omega
  rw [if_neg d]
  by_cases e : off < 0x2000
  · rw [if_pos e]
    simp [Area.hostWritable]
    omega
  rw [if_neg e, if_pos h2]
  simp [Area.hostWritable]
  omega

/-- A bit of a little-endian value is the bit of its byte. -/
theorem leInt_testBit (bs : List Byte) (k j : Nat) (h : j < 8) :
    (leInt bs).testBit (8 * k + j) = (bs.getD k 0#8).getLsbD j := by
  induction bs generalizing k with
  | nil => simp [leInt]
  | cons b bs ih =>
    have e : leInt (b :: bs) = 2 ^ 8 * leInt bs + b.toNat := by
      simp only [leInt]
      omega
    rw [e, Nat.testBit_two_pow_mul_add _ b.isLt]
    cases k with
    | zero => simp [h, BitVec.getLsbD]
    | succ k =>
      rw [if_neg (by omega), show 8 * (k + 1) + j - 8 = 8 * k + j by omega, ih]
      simp

/-! ## Staging a byte (41_cfb R157) -/

/-- Staging a byte changes only V, FB and cf. -/
theorem Cfb.stage_frame (u : Cfb) (b : Byte) :
    (u.stage b).sB = u.sB ∧ (u.stage b).enc = u.enc ∧ (u.stage b).keyed = u.keyed ∧ (u.stage b).inited = u.inited ∧
      (u.stage b).key = u.key ∧ (u.stage b).IV = u.IV ∧ (u.stage b).KB = u.KB ∧ (u.stage b).ko = u.ko := by
  simp only [Cfb.stage]
  split_ifs <;> simp

/-- Staging a byte neither reads nor writes the cursor. -/
theorem Cfb.stage_setKo (u : Cfb) (b : Byte) (n : Nat) :
    ({ u with ko := n } : Cfb).stage b = { u.stage b with ko := n } := by
  simp only [Cfb.stage]
  split_ifs <;> rfl

end Sys2Proof.Machine
end

