-- ==== Sys2Proof/Laws/Encoding.lean ====
section
/-! SUPPORT. The fields of a command word built from fields (30_encoding R91). -/

namespace Sys2Proof

open Sys2Proof.Machine (atBit)

section
variable (b a : Byte) (i k e : Bool) (u : BitVec 2) (o : BitVec 4)

@[simp] theorem fieldOp_commandWord : fieldOp (commandWord b a i k e u o) = o := by
  ext j hj
  simp only [fieldOp, commandWord, atBit]
  interval_cases j <;> simp

@[simp] theorem fieldUnit_commandWord : fieldUnit (commandWord b a i k e u o) = u := by
  ext j hj
  simp only [fieldUnit, commandWord, atBit]
  interval_cases j <;> simp

@[simp] theorem fieldEnc_commandWord : fieldEnc (commandWord b a i k e u o) = e := by
  simp [fieldEnc, commandWord, atBit]

@[simp] theorem fieldKp_commandWord : fieldKp (commandWord b a i k e u o) = k := by
  simp [fieldKp, commandWord, atBit]

@[simp] theorem fieldIvp_commandWord : fieldIvp (commandWord b a i k e u o) = i := by
  simp [fieldIvp, commandWord, atBit]

@[simp] theorem fieldRsv_commandWord : fieldRsv (commandWord b a i k e u o) = 0#7 := by
  ext j hj
  simp only [fieldRsv, commandWord, atBit]
  interval_cases j <;> simp

@[simp] theorem fieldImmA_commandWord : fieldImmA (commandWord b a i k e u o) = a := by
  ext j hj
  simp only [fieldImmA, commandWord, atBit]
  interval_cases j <;> simp

@[simp] theorem fieldImmB_commandWord : fieldImmB (commandWord b a i k e u o) = b := by
  ext j hj
  simp only [fieldImmB, commandWord, atBit]
  interval_cases j <;> simp

end

end Sys2Proof
end

