-- ==== Sys2Proof/Laws/PerInstr.lean ====
section
/-! SUPPORT. The per-instruction family ReservedFieldZero: the encoding of every command leaves the RSV field 0
(30_encoding R91: "reserved, must be 0"). -/

namespace Sys2Proof.Laws.ReservedFieldZero

/-- The RSV field of the command word of `i` is 0. -/
def Statement (i : Instr) : Prop := fieldRsv (encode i) = 0#7

theorem cfbCfg (immA : Byte) : Statement (.cfbCfg immA) := fieldRsv_commandWord _ _ _ _ _ _ _
theorem cfbInit (enc kp ivp : Bool) : Statement (.cfbInit enc kp ivp) := fieldRsv_commandWord _ _ _ _ _ _ _
theorem cfbProc : Statement .cfbProc := fieldRsv_commandWord _ _ _ _ _ _ _
theorem cfbProcb : Statement .cfbProcb := fieldRsv_commandWord _ _ _ _ _ _ _
theorem cfbFinal : Statement .cfbFinal := fieldRsv_commandWord _ _ _ _ _ _ _
theorem cfbReset : Statement .cfbReset := fieldRsv_commandWord _ _ _ _ _ _ _
theorem cfbName : Statement .cfbName := fieldRsv_commandWord _ _ _ _ _ _ _
theorem cfbUosz : Statement .cfbUosz := fieldRsv_commandWord _ _ _ _ _ _ _
theorem cfbOsz : Statement .cfbOsz := fieldRsv_commandWord _ _ _ _ _ _ _
theorem cfbAadb : Statement .cfbAadb := fieldRsv_commandWord _ _ _ _ _ _ _
theorem cfbAadn : Statement .cfbAadn := fieldRsv_commandWord _ _ _ _ _ _ _
theorem ctrCfg : Statement .ctrCfg := fieldRsv_commandWord _ _ _ _ _ _ _
theorem ctrInit (enc kp ivp : Bool) : Statement (.ctrInit enc kp ivp) := fieldRsv_commandWord _ _ _ _ _ _ _
theorem ctrProc : Statement .ctrProc := fieldRsv_commandWord _ _ _ _ _ _ _
theorem ctrProcb : Statement .ctrProcb := fieldRsv_commandWord _ _ _ _ _ _ _
theorem ctrFinal : Statement .ctrFinal := fieldRsv_commandWord _ _ _ _ _ _ _
theorem ctrReset : Statement .ctrReset := fieldRsv_commandWord _ _ _ _ _ _ _
theorem ctrName : Statement .ctrName := fieldRsv_commandWord _ _ _ _ _ _ _
theorem ctrUosz : Statement .ctrUosz := fieldRsv_commandWord _ _ _ _ _ _ _
theorem ctrOsz : Statement .ctrOsz := fieldRsv_commandWord _ _ _ _ _ _ _
theorem ctrAadb : Statement .ctrAadb := fieldRsv_commandWord _ _ _ _ _ _ _
theorem ctrAadn : Statement .ctrAadn := fieldRsv_commandWord _ _ _ _ _ _ _
theorem sipCfg (immA immB : Byte) : Statement (.sipCfg immA immB) := fieldRsv_commandWord _ _ _ _ _ _ _
theorem sipInit (kp ivp : Bool) : Statement (.sipInit kp ivp) := fieldRsv_commandWord _ _ _ _ _ _ _
theorem sipUpdn : Statement .sipUpdn := fieldRsv_commandWord _ _ _ _ _ _ _
theorem sipUpd : Statement .sipUpd := fieldRsv_commandWord _ _ _ _ _ _ _
theorem sipFin : Statement .sipFin := fieldRsv_commandWord _ _ _ _ _ _ _
theorem sipReset : Statement .sipReset := fieldRsv_commandWord _ _ _ _ _ _ _
theorem sipName : Statement .sipName := fieldRsv_commandWord _ _ _ _ _ _ _
theorem sipFin64 : Statement .sipFin64 := fieldRsv_commandWord _ _ _ _ _ _ _
theorem sipMacsz : Statement .sipMacsz := fieldRsv_commandWord _ _ _ _ _ _ _

end Sys2Proof.Laws.ReservedFieldZero
end

