-- ==== Sys2Proof/Tests/Slice0.lean ====
section
/-! SUPPORT. Small tests: the assembler's check, decoding of words written out from the spec's encodings, one step or one
command on small states with the values of 95_test_vectors, and a witness for the hypotheses of every obligation. -/

namespace Sys2Proof.Tests

open Sys2Proof Sys2Proof.Machine Sys2Proof.Claims

/-! ## The well-formedness check (30_encoding R102: 8..2040 bits) -/

/-- A segment size of 0 bits is not assembled. -/
theorem test_wellFormed_refuses_zero_segment : Instr.wellFormed (.cfbCfg 0#8) = false := by decide
theorem test_wellFormed_admits_8_bits : Instr.wellFormed (.cfbCfg 1#8) = true := by decide
/-- 12 is no multiple of 8; 0 and 2048 lie outside 8..2040. -/
theorem test_assembler_refuses_segments : asmCfbCfg 12 = none ∧ asmCfbCfg 0 = none ∧ asmCfbCfg 2048 = none := by decide
theorem test_assembler_admits_2040_bits : asmCfbCfg 2040 = some (.cfbCfg 255#8) := by decide
theorem test_assembler_refuses_c_256 : asmSipCfg 256 4 = none ∧ asmSipCfg 2 4 = some (.sipCfg 2#8 4#8) := by decide

/-! ## Decoding: every command's word from 30_encoding R105, the operand words from R105 and 95_test_vectors §6.1 -/

theorem test_decode_cfbProc : decode 0x00000002#32 = .ok .cfbProc := by decide
theorem test_decode_cfbProcb : decode 0x00000003#32 = .ok .cfbProcb := by decide
theorem test_decode_cfbFinal : decode 0x00000004#32 = .ok .cfbFinal := by decide
theorem test_decode_cfbReset : decode 0x00000005#32 = .ok .cfbReset := by decide
theorem test_decode_cfbName : decode 0x00000006#32 = .ok .cfbName := by decide
theorem test_decode_cfbUosz : decode 0x00000007#32 = .ok .cfbUosz := by decide
theorem test_decode_cfbOsz : decode 0x00000008#32 = .ok .cfbOsz := by decide
theorem test_decode_cfbAadb : decode 0x00000009#32 = .ok .cfbAadb := by decide
theorem test_decode_cfbAadn : decode 0x0000000A#32 = .ok .cfbAadn := by decide
theorem test_decode_ctrCfg : decode 0x00000010#32 = .ok .ctrCfg := by decide
theorem test_decode_ctrProc : decode 0x00000012#32 = .ok .ctrProc := by decide
theorem test_decode_ctrProcb : decode 0x00000013#32 = .ok .ctrProcb := by decide
theorem test_decode_ctrFinal : decode 0x00000014#32 = .ok .ctrFinal := by decide
theorem test_decode_ctrReset : decode 0x00000015#32 = .ok .ctrReset := by decide
theorem test_decode_ctrName : decode 0x00000016#32 = .ok .ctrName := by decide
theorem test_decode_ctrUosz : decode 0x00000017#32 = .ok .ctrUosz := by decide
theorem test_decode_ctrOsz : decode 0x00000018#32 = .ok .ctrOsz := by decide
theorem test_decode_ctrAadb : decode 0x00000019#32 = .ok .ctrAadb := by decide
theorem test_decode_ctrAadn : decode 0x0000001A#32 = .ok .ctrAadn := by decide
theorem test_decode_sipUpdn : decode 0x00000022#32 = .ok .sipUpdn := by decide
theorem test_decode_sipUpd : decode 0x00000023#32 = .ok .sipUpd := by decide
theorem test_decode_sipFin : decode 0x00000024#32 = .ok .sipFin := by decide
theorem test_decode_sipReset : decode 0x00000025#32 = .ok .sipReset := by decide
theorem test_decode_sipName : decode 0x00000026#32 = .ok .sipName := by decide
theorem test_decode_sipFin64 : decode 0x0000002B#32 = .ok .sipFin64 := by decide
theorem test_decode_sipMacsz : decode 0x0000002C#32 = .ok .sipMacsz := by decide
theorem test_decode_cfbCfg_8_bits : decode 0x00010000#32 = .ok (.cfbCfg 1#8) := by decide
theorem test_decode_cfbCfg_128_bits : decode 0x00100000#32 = .ok (.cfbCfg 16#8) := by decide
theorem test_decode_cfbInit_enc_key_iv : decode 0x000001C1#32 = .ok (.cfbInit true true true) := by decide
theorem test_decode_cfbInit_dec_iv : decode 0x00000101#32 = .ok (.cfbInit false false true) := by decide
theorem test_decode_ctrInit_enc_key_iv : decode 0x000001D1#32 = .ok (.ctrInit true true true) := by decide
theorem test_decode_ctrInit_enc_iv : decode 0x00000151#32 = .ok (.ctrInit true false true) := by decide
theorem test_decode_sipCfg_2_4 : decode 0x04020020#32 = .ok (.sipCfg 2#8 4#8) := by decide
theorem test_decode_sipCfg_1_3 : decode 0x03010020#32 = .ok (.sipCfg 1#8 3#8) := by decide
theorem test_decode_sipInit_key : decode 0x000000A1#32 = .ok (.sipInit true false) := by decide
theorem test_decode_sipInit_key_iv : decode 0x000001A1#32 = .ok (.sipInit true true) := by decide

/-! Illegal words (95_test_vectors §6.1), each under the first reason of 30_encoding R98 that holds. -/

theorem test_illegal_unit3 : decode 0x00000030#32 = .error .reservedUnit := by decide
theorem test_illegal_all_ones : decode 0xFFFFFFFF#32 = .error .reservedUnit := by decide
theorem test_illegal_cfb_op_B : decode 0x0000000B#32 = .error .reservedOperation := by decide
theorem test_illegal_ctr_op_B : decode 0x0000001B#32 = .error .reservedOperation := by decide
theorem test_illegal_sip_op_7 : decode 0x00000027#32 = .error .reservedOperation := by decide
theorem test_illegal_sip_op_A : decode 0x0000002A#32 = .error .reservedOperation := by decide
theorem test_illegal_sip_op_D : decode 0x0000002D#32 = .error .reservedOperation := by decide
theorem test_illegal_rsv_bit_9 : decode 0x00000202#32 = .error .reservedBits := by decide
theorem test_illegal_rsv_bit_9_init : decode 0x000003C1#32 = .error .reservedBits := by decide
theorem test_illegal_immB_cfbCfg : decode 0x01010000#32 = .error .constrainedField := by decide
theorem test_illegal_immA_ctrCfg : decode 0x00010010#32 = .error .constrainedField := by decide
theorem test_illegal_enc_sipInit : decode 0x00000061#32 = .error .constrainedField := by decide
theorem test_illegal_ivp_osz : decode 0x00000108#32 = .error .constrainedField := by decide
theorem test_illegal_immB_proc : decode 0x80000002#32 = .error .constrainedField := by decide

/-- The encoder gives the words of 30_encoding R105. -/
theorem test_encode_words :
    encode (.cfbInit true true true) = 0x000001C1#32 ∧ encode (.sipCfg 2#8 4#8) = 0x04020020#32 ∧
      encode .sipMacsz = 0x0000002C#32 ∧ encode (.cfbCfg 16#8) = 0x00100000#32 := by decide
theorem test_table_word : decodeTableWord 32 0x000000A1 = some (.sipInit true false) := by decide
theorem test_table_word_short : decodeTableWord 8 0x102 = some .cfbProc := by decide

/-! ## The TOY4 instance (95_test_vectors §2.1) and small states -/

/-- `TOY4(k, x)`. -/
def toyBlock (k x : List Byte) : List Byte :=
  let t := beInt x ^^^ beInt k
  let t := (t * 128 ||| t / 2 ^ 25) % 2 ^ 32
  toBe 4 (t + 0x9E3779B9)

/-- The TOY4 parameters: `P_B = 4`, keys of four bytes, the name "TOY4". -/
def toy : Params where
  blockIndex := 3
  cipherByte k b i := (toyBlock k b).getD i 0#8
  keyAccepted k := k.length == 4
  nameHead := 0x54#7
  nameTail := [0x4F#7, 0x59#7, 0x34#7]

/-- Consecutive bytes from an offset. -/
def cells : Nat → List Byte → Memory
  | _, [] => []
  | a, b :: bs => (a, b) :: cells (a + 1) bs

def k4 : List Byte := [1#8, 2#8, 3#8, 4#8]
def iv4 : List Byte := [0xA0#8, 0xB0#8, 0xC0#8, 0xD0#8]
/-- `P10` of 95_test_vectors §3. -/
def p10 : List Byte := [0x10#8, 0x11#8, 0x12#8, 0x13#8, 0x14#8, 0x15#8, 0x16#8, 0x17#8, 0x18#8, 0x19#8]
/-- The bytes `00 01 ...`. -/
def count (n : Nat) : List Byte := (List.range n).map (BitVec.ofNat 8)

/-- A state of the TOY4 machine with the given bytes at an offset, after power-on. -/
def toyState (base : Nat) (bs : List Byte) : State := { State.powerOn toy with mem := cells base bs }

/-- The CFB unit with `K4`, IV `a0b0c0d0` and a segment size, right after INIT. -/
def toyCfb (sB : Nat) (enc : Bool) : Cfb :=
  { Cfb.powerOn toy with
    sB := sB, enc := enc, keyed := true, inited := true, key := k4, IV := iv4, V := iv4, FB := zeros sB }

/-- The CTR unit with `K4` and an IV, right after INIT. -/
def toyCtr (iv : List Byte) : Ctr :=
  { Ctr.powerOn toy with keyed := true, inited := true, key := k4, IV := iv, CTR := iv }

/-- The SIP unit with the key `00 01 ... 0f` and `c = 2`, `d = 4`, right after INIT. -/
def demoSip : Sip := Sip.initialised (count 16) Sip.powerOn

/-- `P10` in IN_BUF and a length of 10, with the given units. -/
def toyIo (c : Cfb) (k : Ctr) : State := { toyState 0x1000 p10 with cfb := c, ctr := k, aLen := 10#32 }

/-- What a NAME leaves: RESULT0 and that many bytes of NAME_BUF. -/
def nameOf (s : State) : Nat × List Byte := (s.result0.toNat, s.mem.readBytes 0x300 s.result0.toNat)

/-- The rows of 95_test_vectors §2.1. -/
theorem test_toy_cipher :
    toy.E k4 iv4 = [0x77#8, 0x99#8, 0x64#8, 0x09#8] ∧ toy.E k4 (zeros 4) = [0x1F#8, 0x38#8, 0xFB#8, 0xB9#8] := by
  decide

/-! ## CFB commands -/

/-- V-ERR-9: CFG clears `inited` and `keyed`. -/
theorem test_cfbCfg_clears :
    let t := cfbCfg toy 4#8 (toyIo (toyCfb 3 true) (Ctr.powerOn toy))
    (t.err, t.cfb.sB, t.cfb.inited, t.cfb.keyed) = (.ok, 4, false, false) := by decide
/-- V-ERR-8: a segment longer than the block. -/
theorem test_cfbCfg_refuses :
    let t := cfbCfg toy 255#8 (toyIo (toyCfb 4 true) (Ctr.powerOn toy))
    (t.err, t.cfb.inited) = (.invalidParameter, true) := by decide
/-- The example of 41_cfb R152. -/
theorem test_cfbInit_pads_iv :
    let t := cfbInit toy true true true { State.powerOn toy with
      mem := cells 0x100 k4 ++ cells 0x200 [0xC0#8, 0xD0#8], aKeylen := 4#32, aIvlen := 2#32 }
    (t.err, t.cfb.V, t.cfb.IV, t.cfb.ko, t.cfb.cf) =
      (.ok, [0#8, 0#8, 0xC0#8, 0xD0#8], [0#8, 0#8, 0xC0#8, 0xD0#8], 4, 0) := by decide
/-- V-ERR-12 and V-ERR-13. -/
theorem test_cfbInit_errors :
    (cfbInit toy true true true { State.powerOn toy with aKeylen := 4#32, aIvlen := 5#32 }).err = .invalidParameter ∧
    (cfbInit toy false false false (State.powerOn toy)).err = .illegalState := by decide
/-- V-CFB-4: a segment size that does not divide the block. -/
theorem test_cfbProc_output :
    let t := proc toy (cfbUnit toy) (toyIo (toyCfb 3 true) (Ctr.powerOn toy))
    t.mem.readBytes 0x2000 10 =
      [0x67#8, 0x88#8, 0x76#8, 0x1A#8, 0x44#8, 0xE8#8, 0x25#8, 0x36#8, 0x32#8, 0x42#8] ∧
    (t.cfb.V, t.cfb.cf, t.cfb.ko, t.result0) = ([0xE8#8, 0x25#8, 0x36#8, 0x32#8], 1, 2, 10#32) := by decide
/-- V-ERR-4: no wrap-around; V-ERR-6: the output range. -/
theorem test_cfbProc_ranges :
    let s := toyIo (toyCfb 4 true) (Ctr.powerOn toy)
    (proc toy (cfbUnit toy) { s with aInoff := 0xFFFFFFFF#32, aLen := 2#32 }).err = .dataLength ∧
    (proc toy (cfbUnit toy) { s with aLen := 4096#32, aOutoff := 1#32 }).err = .outputLength := by decide
/-- V-CFB-9. -/
theorem test_cfbProcb :
    (procByte toy (cfbUnit toy) { toyIo (toyCfb 4 true) (Ctr.powerOn toy) with aByte := 0x10#8 }).result0 = 0x67#32 := by
  decide
/-- Decryption feeds back the input: the ciphertext byte is staged (90_conflicts C3). -/
theorem test_cfbProcb_decrypts :
    let t := procByte toy (cfbUnit toy) { toyIo (toyCfb 1 false) (Ctr.powerOn toy) with aByte := 0x67#8 }
    (t.result0, t.cfb.V) = (0x10#32, [0xB0#8, 0xC0#8, 0xD0#8, 0x67#8]) := by decide
/-- FINAL keeps a staged segment. -/
theorem test_cfbFinal :
    let t := finalCommand (cfbUnit toy) (toyIo { toyCfb 4 true with cf := 2, ko := 2 } (Ctr.powerOn toy))
    (t.err, t.result0, t.cfb.cf, t.cfb.ko) = (.ok, 0#32, 2, 2) := by decide
/-- RESET restores V from the IV and exhausts the cursor. -/
theorem test_cfbReset :
    let u := Cfb.reset toy { toyCfb 4 true with V := zeros 4, cf := 2, ko := 2 }
    (u.V, u.cf, u.ko) = (iv4, 0, 4) := by decide
/-- V-CFB-14. -/
theorem test_cfbName :
    nameOf (nameCommand ((toyCfb 3 true).name toy) (State.powerOn toy)) =
      (10, [0x54#8, 0x4F#8, 0x59#8, 0x34#8, 0x2F#8, 0x43#8, 0x46#8, 0x42#8, 0x32#8, 0x34#8]) := by decide
/-- V-ERR-18. -/
theorem test_cfb_sizes :
    (sizeQuery { State.powerOn toy with aLen := 37#32 }).result0 = 37#32 ∧
    (sizeQuery { State.powerOn toy with aLen := 37#32 }).result1 = 0#32 := by decide
/-- V-ERR-23. -/
theorem test_cfb_aad : (aadCommand (State.powerOn toy)).err = .unsupported := by decide

/-! ## CTR commands -/

/-- CTR.CFG forgets the key (42_ctr R180). -/
theorem test_ctrCfg :
    let t := ctrCfg toy (toyIo (Cfb.powerOn toy) (toyCtr iv4))
    (t.ctr.inited, t.ctr.keyed, t.ctr.key) = (false, false, []) := by decide
/-- The example of 42_ctr R182. -/
theorem test_ctrInit :
    let t := ctrInit toy true true true { State.powerOn toy with
      mem := cells 0x100 k4 ++ cells 0x200 iv4, aKeylen := 4#32, aIvlen := 4#32 }
    (t.err, t.ctr.CTR, t.ctr.ko) = (.ok, iv4, 4) := by decide
/-- V-ERR-19, V-ERR-20, V-ERR-21. -/
theorem test_ctrInit_errors :
    let s := { State.powerOn toy with mem := cells 0x100 k4, aKeylen := 4#32, aIvlen := 4#32 }
    (ctrInit toy true true false s).err = .invalidParameter ∧
    (ctrInit toy true true true { s with aIvlen := 3#32 }).err = .invalidParameter ∧
    (ctrInit toy true false true s).err = .illegalState := by decide
/-- V-CTR-1. -/
theorem test_ctrProc :
    let t := proc toy (ctrUnit toy) (toyIo (Cfb.powerOn toy) (toyCtr iv4))
    t.mem.readBytes 0x2000 10 =
      [0x67#8, 0x88#8, 0x76#8, 0x1A#8, 0x63#8, 0x8C#8, 0x72#8, 0x9E#8, 0x6F#8, 0x80#8] ∧
    (t.ctr.CTR, t.ctr.ko) = ([0xA0#8, 0xB0#8, 0xC0#8, 0xD3#8], 2) := by decide
/-- V-CTR-4: the wrap is silent. -/
theorem test_ctrProc_wraps :
    let t := proc toy (ctrUnit toy) { toyState 0x1000 (zeros 12) with
      ctr := toyCtr [0xFF#8, 0xFF#8, 0xFF#8, 0xFE#8], aLen := 12#32 }
    (t.err, t.ctr.CTR, t.ctr.ko) = (.ok, [0#8, 0#8, 0#8, 1#8], 4) ∧
    t.mem.readBytes 0x2000 12 =
      [0x1D#8, 0x35#8, 0xF7#8, 0x38#8, 0x1D#8, 0x35#8, 0xF7#8, 0xB8#8, 0x1F#8, 0x38#8, 0xFB#8, 0xB9#8] := by
  decide
/-- V-CTR-5. -/
theorem test_inc :
    inc [0xA0#8, 0xB0#8, 0xC0#8, 0xFF#8] = [0xA0#8, 0xB0#8, 0xC1#8, 0x00#8] ∧
    inc [0xFF#8, 0xFF#8, 0xFF#8, 0xFF#8] = zeros 4 := by decide
/-- V-CTR-6. -/
theorem test_ctrProcb :
    let t := procByte toy (ctrUnit toy) { toyIo (Cfb.powerOn toy) (toyCtr iv4) with aByte := 0x10#8 }
    (t.result0, t.ctr.CTR) = (0x67#32, [0xA0#8, 0xB0#8, 0xC0#8, 0xD1#8]) := by decide
/-- V-ERR-15. -/
theorem test_ctrFinal : (finalCommand (ctrUnit toy) (State.powerOn toy)).err = .illegalState := by decide
theorem test_ctrReset :
    let u := Ctr.reset toy { toyCtr iv4 with CTR := zeros 4, ko := 2 }
    (u.CTR, u.ko) = (iv4, 4) := by decide
/-- V-CTR-8. -/
theorem test_ctrName :
    nameOf (nameCommand (Ctr.name toy) (State.powerOn toy)) =
      (8, [0x54#8, 0x4F#8, 0x59#8, 0x34#8, 0x2F#8, 0x53#8, 0x49#8, 0x43#8]) := by decide

/-! ## SIP commands -/

/-- V-ERR-32: CFGINFO[31:16] = 0x0301. -/
theorem test_sipCfg :
    let t := sipCfg 1#8 3#8 { State.powerOn toy with sip := demoSip }
    (t.sip.inited, t.cfginfo.extractLsb' 16 16) = (false, 0x0301#16) := by decide
/-- The example of 43_siphash R202. -/
theorem test_sipInit :
    let t := sipInit true false { toyState 0x100 (count 16) with aKeylen := 16#32 }
    (t.sip.k0, t.sip.k1, t.sip.v0, t.sip.v3) =
      (0x0706050403020100#64, 0x0f0e0d0c0b0a0908#64, 0x7469686173716475#64, 0x7b6b696e727e6c7b#64) := by decide
/-- V-ERR-26, V-ERR-28. -/
theorem test_sipInit_errors :
    (sipInit true true { State.powerOn toy with aKeylen := 16#32 }).err = .invalidParameter ∧
    (sipInit true false { State.powerOn toy with aKeylen := 15#32 }).err = .invalidParameter := by decide
/-- V-SIP-2: one SipRound from the initial state. -/
theorem test_sipround :
    let u := demoSip.round
    (u.v0, u.v1, u.v2, u.v3) =
      (0x6864848c93698c85#64, 0x41d43f143c94a7dc#64, 0xf3f94792d7121732#64, 0x5e52f75805987c12#64) := by decide
/-- V-SIP-3: 15 bytes. -/
theorem test_sipUpdn :
    let t := sipUpdn { toyState 0x1000 (count 15) with sip := demoSip, aLen := 15#32 }
    (t.sip.m, t.sip.wp, t.sip.wc, t.sip.v0) =
      (0x0e0d0c0b0a090800#64, 7, 1#64, 0x4a017198de0a59e0#64) := by decide
/-- V-ERR-29. -/
theorem test_sipUpdn_range :
    (sipUpdn { State.powerOn toy with sip := demoSip, aInoff := 4095#32, aLen := 2#32 }).err = .dataLength := by
  decide
/-- V-SIP-3: three bytes. -/
theorem test_sipUpd :
    let t := sipUpd { State.powerOn toy with sip := [0#8, 1#8].foldl Sip.absorb demoSip, aByte := 2#8 }
    (t.sip.m, t.sip.wp, t.sip.wc) = (0x0201000000000000#64, 3, 0#64) := by decide
/-- V-ERR-31: the MAC of `00 01 02` at the last offset that fits. -/
theorem test_sipFin :
    let t := sipFin { State.powerOn toy with sip := (count 3).foldl Sip.absorb demoSip, aOutoff := 4088#32 }
    (t.err, t.result0, t.mem.readBytes 0x2FF8 8) =
      (.ok, 8#32, [0x2D#8, 0x7E#8, 0xFB#8, 0xD7#8, 0x96#8, 0x66#8, 0x67#8, 0x85#8]) := by decide
/-- V-ERR-30: the message is kept. -/
theorem test_sipFin_range :
    let t := sipFin { State.powerOn toy with sip := (count 3).foldl Sip.absorb demoSip, aOutoff := 4089#32 }
    (t.err, t.sip.m, t.sip.wp) = (.outputLength, 0x0201000000000000#64, 3) := by decide
/-- V-SIP-1, the source's digest. -/
theorem test_sipFin64 :
    let t := sipFin64 { State.powerOn toy with sip := demoSip }
    (t.result0, t.result1) = (0xdd0e0e31#32, 0x726fdb47#32) := by decide
/-- Entry 15 of 95_test_vectors §5.3. -/
theorem test_sipFin64_15_bytes :
    ((count 15).foldl Sip.absorb demoSip).finalize.1 = 0xa129ca6149be45e5#64 := by decide
/-- V-SIP-5: RESET discards the bytes absorbed. -/
theorem test_sipReset : ((count 3).foldl Sip.absorb demoSip).reset = demoSip := by decide
/-- V-SIP-8. -/
theorem test_sipName :
    nameOf (nameCommand ({ demoSip with c := 255#8, d := 255#8 } : Sip).name (State.powerOn toy)) =
      (15, [0x53#8, 0x69#8, 0x70#8, 0x48#8, 0x61#8, 0x73#8, 0x68#8, 0x2D#8, 0x32#8, 0x35#8, 0x35#8, 0x2D#8, 0x32#8,
        0x35#8, 0x35#8]) := by decide
/-- The independent SipHash of the statements gives the source's digest too. -/
theorem test_sipHashOf : sipHashOf 2 4 0x0706050403020100#64 0x0f0e0d0c0b0a0908#64 [] = 0x726fdb47dd0e0e31#64 := by
  decide

/-! ## Registers and host accesses (95_test_vectors §6.2, with `P_B = 4`) -/

theorem test_status_power_on : (State.powerOn toy).status toy = 0x00000400#32 := by decide
theorem test_cfginfo_power_on : (State.powerOn toy).cfginfo = 0x04020004#32 := by decide
theorem test_write_32 :
    ((State.powerOn toy).hostWrite 0x1000 4 0x13121110#32).mem = cells 0x1000 [0x10#8, 0x11#8, 0x12#8, 0x13#8] := by
  decide
theorem test_write_a_byte : ((State.powerOn toy).hostWrite 0x024 4 0x000001FF#32).aByte = 0xFF#8 := by decide
theorem test_name_buf_is_read_only : ((State.powerOn toy).hostWrite 0x300 1 0x55#32).mem = [] := by decide
theorem test_read_16 :
    (toyState 0x1004 [0x14#8, 0x15#8]).hostRead toy 0x1004 2 = 0x00001514#32 := by decide
theorem test_reserved_reads_zero :
    (State.powerOn toy).hostRead toy 0x02C 4 = 0#32 ∧ (State.powerOn toy).hostRead toy 0xFFE 2 = 0#32 := by
  decide
/-- A 16-bit access to STATUS, a misaligned and an 8-byte access are bus errors; 0x3000 is outside. -/
theorem test_admission :
    admission 0x004 2 = .busError ∧ admission 0x1001 2 = .busError ∧ admission 0x1000 8 = .busError ∧
      admission 0x000 1 = .busError ∧ admission 0x3000 4 = .outside ∧ admission 0x2FFF 1 = .admitted := by decide
theorem test_memory_store_sorts :
    Memory.store (Memory.store [] 0x1001 2#8) 0x1000 1#8 = [(0x1000, 1#8), (0x1001, 2#8)] ∧
      Memory.store [(0x1000, 1#8)] 0x1000 9#8 = [(0x1000, 9#8)] := by decide
/-- `SETIO` and `SIP.MAC64` of 30_encoding R104. -/
theorem test_pseudo_expansion :
    Stmt.expand (.setIo 1#32 2#32 3#32) = [.write 0x010 4 1#32, .write 0x014 4 2#32, .write 0x018 4 3#32] ∧
      Stmt.expand (.cfbDec false true) = [.write 0x000 4 0x00000101#32] := by decide

/-- The first step after reset with the word of SIP.MACSZ, and with an illegal word. -/
theorem test_first_step :
    step (State.reset.withFetchWord 32 0x2C) = .next (State.reset.finish 8#32 0#32) ∧
      step (State.reset.withFetchWord 32 0x30) = .next (State.reset.raise .illegal) := ⟨rfl, rfl⟩

/-! ## Witnesses: states and operands that meet the hypotheses of the obligations

A witness is named after its obligation. Where a statement has clauses with hypotheses of their own, the witness has one
part for each, at the boundaries of the ranges. -/

/-- The machine after reset with these accesses waiting. -/
def waiting (port : List Access) : State := { State.reset with port := port }

/-- The machine with its three units keyed and initialised. -/
def ready : State :=
  { State.reset with
    cfb := { State.reset.cfb with keyed := true, inited := true }
    ctr := { State.reset.ctr with keyed := true, inited := true }
    sip := demoSip }

theorem witness_EveryLegalWordIsItsCommandsEncoding : decode 0xFFFF0020#32 = .ok (.sipCfg 255#8 255#8) := by decide

/-- One word for each of the four reasons. -/
theorem witness_IllegalWordsAreThoseOfTheFourReasons :
    (waiting [.write CMD 4 0x00000030#32]).port = .write CMD 4 0x00000030#32 :: [] ∧
      IsIllegalWord 0x00000030#32 ∧ IsIllegalWord 0x0000000B#32 ∧ IsIllegalWord 0x00000202#32 ∧
      IsIllegalWord 0x01010000#32 := by
  refine ⟨rfl, Or.inl (by decide), Or.inr (Or.inl (Or.inl (by decide))), Or.inr (Or.inr (Or.inl (by decide))),
    Or.inr (Or.inr (Or.inr (Or.inr (Or.inr (Or.inr (Or.inr ?_))))))⟩
  decide

theorem witness_AStepRunsTheDecodedCommand :
    (waiting [.write CMD 4 0x00000002#32]).port = .write CMD 4 0x00000002#32 :: [] ∧
      decode 0x00000002#32 = .ok .cfbProc := ⟨rfl, by decide⟩

theorem witness_AnAssembledCommandRunsAsWritten :
    (waiting (Stmt.expand (.cmd .sipFin) ++ [.read STATUS 4])).port = Stmt.expand (.cmd .sipFin) ++ [.read STATUS 4] := rfl

/-- An access that faults and one that does not, at the last offset of the window. -/
theorem witness_BusErrorsAreExactlyTheUnadmittedAccesses :
    (waiting [.read 0x2FFF 2]).port = .read 0x2FFF 2 :: [] ∧ step (waiting [.read 0x2FFF 2]) = .fault .busError ∧
      (waiting [.write 0x2FFF 1 7#32]).port = .write 0x2FFF 1 7#32 :: [] ∧
      step (waiting [.write 0x2FFF 1 7#32]) ≠ .fault .busError ∧ (0x2FFF < 0x3000) :=
  ⟨rfl, rfl, rfl, fun h => (nomatch h), by decide⟩

theorem witness_AccessesOutsideTheWindowAreRefused :
    (waiting [.read 0x3000 4]).port = .read 0x3000 4 :: [] ∧
      (waiting [.write 0x3000 1 0#32]).port = .write 0x3000 1 0#32 :: [] ∧ 0x3000 ≤ 0x3000 := ⟨rfl, rfl, le_refl _⟩

/-- The first and the last register, and the two ends of the reserved offsets. -/
theorem witness_RegisterReadsReturnTheRegister :
    ∀ off ∈ [0x000, 0x004, 0x008, 0x00C, 0x010, 0x014, 0x018, 0x01C, 0x020, 0x024, 0x028, 0x02C, 0x0FC],
      (waiting [.read off 4]).port = .read off 4 :: [] ∧ off < 0x100 ∧ off % 4 = 0 := by
  simp [waiting]

theorem witness_StatusAndCfginfoShowTheirFields : (toyCfb 4 true).Inv toy := by
  constructor <;> decide

theorem witness_RegisterWritesReachOnlyTheArgumentRegisters :
    ∀ off ∈ [0x004, 0x00C, 0x010, 0x014, 0x018, 0x01C, 0x020, 0x024, 0x028, 0x0FC],
      (waiting [.write off 4 1#32]).port = .write off 4 1#32 :: [] ∧ off < 0x100 ∧ off % 4 = 0 ∧ off ≠ 0x000 := by
  simp [waiting]

/-- Each width, at the ends of the buffers and of the reserved range. -/
theorem witness_BufferReadsGatherBytesLittleEndian :
    ∀ c ∈ [(0x100, 1), (0x100, 4), (0x3FE, 2), (0x400, 4), (0xFFF, 1), (0x1000, 2), (0x2FFC, 4)],
      (waiting [.read c.1 c.2]).port = .read c.1 c.2 :: [] ∧ 0x100 ≤ c.1 ∧ c.1 < 0x3000 ∧
        (c.2 = 1 ∨ (c.2 = 2 ∧ c.1 % 2 = 0) ∨ (c.2 = 4 ∧ c.1 % 4 = 0)) := by
  simp [waiting]

theorem witness_BufferWritesScatterBytesLittleEndian :
    ∀ c ∈ [(0x100, 4), (0x2FF, 1), (0x300, 4), (0x3FE, 2), (0x400, 1), (0xFFC, 4), (0x1000, 2), (0x2FFC, 4)],
      (waiting [.write c.1 c.2 5#32]).port = .write c.1 c.2 5#32 :: [] ∧ 0x100 ≤ c.1 ∧ c.1 < 0x3000 ∧
        (c.2 = 1 ∨ (c.2 = 2 ∧ c.1 % 2 = 0) ∨ (c.2 = 4 ∧ c.1 % 4 = 0)) := by
  simp [waiting]

theorem witness_AWaitingBlockChangesNothing : ready.port = [] := rfl

/-- A legal and an illegal word. -/
theorem witness_EveryCommandReportsExactlyItsListedError :
    (waiting [.write CMD 4 0x00000009#32]).port = .write CMD 4 0x00000009#32 :: [] ∧
      decode 0x00000009#32 = .ok .cfbAadb ∧ decode 0xFFFFFFFF#32 = .error .reservedUnit := ⟨rfl, by decide, by decide⟩

/-- A command that fails. -/
theorem witness_AFailedCommandChangesNothingElse :
    exec .ctrAadn ready = .next (ready.raise .unsupported) ∧ (ready.raise .unsupported).err ≠ .ok := ⟨rfl, by decide⟩

/-- One command of each unit, and words with UNIT = 3. -/
theorem witness_ACommandTouchesOnlyItsOwnUnit :
    (∃ t, exec .cfbReset ready = .next t) ∧ (∃ t, exec .ctrReset ready = .next t) ∧
      (∃ t, exec .sipReset ready = .next t) ∧ unitOf .cfbReset ≠ 1#2 ∧ unitOf .ctrReset ≠ 2#2 ∧
      unitOf .sipReset ≠ 0#2 ∧ fieldUnit 0x00000030#32 = 3#2 :=
  ⟨⟨_, rfl⟩, ⟨_, rfl⟩, ⟨_, rfl⟩, by decide, by decide, by decide, by decide⟩

theorem witness_CommandsKeepTheArgumentRegisters : ∃ t, exec (.sipCfg 1#8 3#8) ready = .next t := ⟨_, rfl⟩

/-- A command that stores eight bytes, the byte before them and the byte after them. -/
theorem witness_CommandsStoreOnlyToTheirBytes :
    (∃ t, exec .sipFin ready = .next t) ∧ ¬ StoresTo .sipFin ready 0x1FFF ∧ ¬ StoresTo .sipFin ready 0x2008 ∧
      ¬ StoresTo .sipUpd ready 0x2000 := by
  refine ⟨⟨_, rfl⟩, ?_, ?_, fun h => h⟩
  · show ¬ (OUT_BASE + ready.outOff ≤ 0x1FFF ∧ 0x1FFF < OUT_BASE + ready.outOff + 8)
    decide
  · show ¬ (OUT_BASE + ready.outOff ≤ 0x2008 ∧ 0x2008 < OUT_BASE + ready.outOff + 8)
    decide

theorem witness_OnlyCfgAndInitChangeKeysAndConfiguration :
    (∃ t, exec .cfbProc ready = .next t) ∧ IsCfgOrInit .cfbProc = false := ⟨⟨_, rfl⟩, rfl⟩

/-- FIN64 leaves a non-zero RESULT1, and a command that fails exists. -/
theorem witness_Result1IsNonzeroOnlyAfterFin64 :
    (∃ t, exec .sipFin64 ready = .next t ∧ t.result1 ≠ 0#32) ∧ (∃ t, exec .cfbAadb ready = .next t ∧ t.err ≠ .ok) :=
  ⟨⟨_, rfl, by decide⟩, ⟨_, rfl, by decide⟩⟩

/-- The smallest segment and the largest, `P_B` bytes. -/
theorem witness_CfgConstructsItsUnit :
    (1 ≤ (1#8).toNat ∧ (1#8).toNat ≤ blockSize) ∧
      (1 ≤ (BitVec.ofNat 8 blockSize).toNat ∧ (BitVec.ofNat 8 blockSize).toNat ≤ blockSize) := by
  have h1 := P_B_pos Config.params
  have h2 := P_B_le Config.params
  simp only [BitVec.toNat_ofNat, blockSize]
  omega

/-- The machine: a keyed unit with KP = 0 and an empty IV. TOY4: KP = 1 with an accepted key and an IV of `P_B` bytes, and
KP = 0 on a keyed unit. -/
theorem witness_CfbInitRekeysAndResets :
    (ready.aIvlen.toNat ≤ blockSize ∧ KeyAccepted Config.params false ready.cfb.keyed ready) ∧
      (({ toyState 0x100 k4 with aKeylen := 4#32, aIvlen := 4#32 } : State).aIvlen.toNat ≤ toy.P_B ∧
        KeyAccepted toy true false { toyState 0x100 k4 with aKeylen := 4#32, aIvlen := 4#32 }) ∧
      KeyAccepted toy false (toyCfb 4 true).keyed (toyIo (toyCfb 4 true) (Ctr.powerOn toy)) := by
  refine ⟨⟨Nat.zero_le _, fun h => (nomatch h), fun _ => rfl⟩, ⟨by decide, fun _ => by decide, fun h => (nomatch h)⟩,
    fun h => (nomatch h), fun _ => rfl⟩

theorem witness_CtrInitRekeysAndResets :
    (({ ready with aIvlen := BitVec.ofNat 32 blockSize } : State).aIvlen.toNat = blockSize ∧
        KeyAccepted Config.params false ready.ctr.keyed { ready with aIvlen := BitVec.ofNat 32 blockSize }) ∧
      (({ toyState 0x100 k4 with aKeylen := 4#32, aIvlen := 4#32 } : State).aIvlen.toNat = toy.P_B ∧
        KeyAccepted toy true false { toyState 0x100 k4 with aKeylen := 4#32, aIvlen := 4#32 }) := by
  refine ⟨⟨?_, fun h => (nomatch h), fun _ => rfl⟩, ⟨by decide, fun _ => by decide, fun h => (nomatch h)⟩⟩
  have := P_B_le Config.params
  simp only [BitVec.toNat_ofNat, blockSize]
  omega

theorem witness_SipInitSplitsTheKeyLittleEndian : ({ ready with aKeylen := 16#32 } : State).aKeylen = 16#32 := rfl

/-- All of both buffers, and no byte at their ends. -/
theorem witness_CfbProcIsTheByteSerialForm :
    (({ ready with aLen := 4096#32 } : State).cfb.inited = true ∧ 0 + (4096#32).toNat ≤ 4096) ∧
      (({ ready with aInoff := 4096#32, aOutoff := 4096#32 } : State).cfb.inited = true ∧
        (4096#32).toNat + ready.aLen.toNat ≤ 4096) := by
  decide

theorem witness_CtrProcIsTheByteSerialForm :
    (({ ready with aLen := 4096#32 } : State).ctr.inited = true ∧ 0 + (4096#32).toNat ≤ 4096) ∧
      (({ ready with aInoff := 4096#32, aOutoff := 4096#32 } : State).ctr.inited = true ∧
        (4096#32).toNat + ready.aLen.toNat ≤ 4096) := by
  decide

theorem witness_ProcbIsOneByteSerialStep :
    ready.cfb.inited = true ∧ ready.ctr.inited = true ∧ State.reset.cfb.inited = false ∧ State.reset.ctr.inited = false :=
  ⟨rfl, rfl, rfl, rfl⟩

theorem witness_FinalProducesNothing :
    ready.cfb.inited = true ∧ ready.ctr.inited = true ∧ State.reset.cfb.inited = false ∧ State.reset.ctr.inited = false :=
  ⟨rfl, rfl, rfl, rfl⟩

/-- A successful INIT of each unit, and a unit in its power-on state. -/
theorem witness_ResetIsIdempotentAndKeepsTheKey :
    (∃ t, exec (.cfbInit true false false) ready = .next t ∧ t.err = .ok) ∧
      (∃ t, exec (.ctrInit true false true) { ready with aIvlen := BitVec.ofNat 32 blockSize } = .next t ∧ t.err = .ok) ∧
      (∃ t, exec (.sipInit true false) { ready with aKeylen := 16#32 } = .next t ∧ t.err = .ok) ∧
      (waiting [.read STATUS 4]).cfb = State.reset.cfb := by
  refine ⟨⟨_, rfl, rfl⟩, ⟨_, rfl, ?_⟩, ⟨_, rfl, rfl⟩, rfl⟩
  have h := witness_CtrInitRekeysAndResets.1.1
  simp [ctrInit, keyCheck, h, ready]

/-- Of each unit the state after a successful INIT, and a unit of the same session whose chaining state differs. -/
theorem witness_ResetIsIdempotentAndKeepsTheKey_restores :
    (∃ t, exec (.cfbInit true false false) ready = .next t ∧ t.err = .ok ∧
      SameCfbSession { t.cfb with V := [], FB := [], cf := 1, ko := 0 } t.cfb) ∧
    (∃ t, exec (.ctrInit true false true) { ready with aIvlen := BitVec.ofNat 32 blockSize } = .next t ∧ t.err = .ok ∧
      SameCtrSession { t.ctr with CTR := [], ko := 0 } t.ctr) ∧
    (∃ t, exec (.sipInit true false) { ready with aKeylen := 16#32 } = .next t ∧ t.err = .ok ∧
      SameSipSession (t.sip.absorb 7#8) t.sip) := by
  obtain ⟨⟨a, ha, ha'⟩, ⟨b, hb, hb'⟩, -, -⟩ := witness_ResetIsIdempotentAndKeepsTheKey
  exact ⟨⟨a, ha, ha', ⟨rfl, rfl, rfl, rfl, rfl, rfl⟩⟩, ⟨b, hb, hb', ⟨rfl, rfl, rfl, rfl⟩⟩,
    ⟨_, rfl, rfl, ⟨rfl, rfl, rfl, rfl, rfl⟩⟩⟩

theorem witness_NameWritesTheUnitsName :
    (∃ str, expectedName .cfbName ready = some str) ∧ (∃ str, expectedName .ctrName ready = some str) ∧
      ∃ str, expectedName .sipName ready = some str := ⟨⟨_, rfl⟩, ⟨_, rfl⟩, ⟨_, rfl⟩⟩

/-- The last byte of IN_BUF, all of it, and no byte at its end. -/
theorem witness_UpdatesAbsorbTheirBytes :
    ready.sip.inited = true ∧ (4095#32).toNat + (1#32).toNat ≤ 4096 ∧ (0#32).toNat + (4096#32).toNat ≤ 4096 ∧
      (4096#32).toNat + (0#32).toNat ≤ 4096 := by decide

/-- The last offset at which eight bytes fit. -/
theorem witness_FinAndFin64ReturnTheMacAndReset : ready.sip.inited = true ∧ (4088#32).toNat + 8 ≤ 4096 := by decide

theorem witness_ZeroLengthProcessingChangesNothing :
    ready.cfb.inited = true ∧ ready.ctr.inited = true ∧ ready.sip.inited = true ∧ ready.aLen = 0#32 ∧
      ready.aInoff.toNat ≤ 4096 ∧ ready.aOutoff.toNat ≤ 4096 ∧ (4096#32).toNat ≤ 4096 := by decide

theorem witness_CfbDecryptsWhatItEncrypts :
    (toyCfb 3 true).enc = true ∧ (toyCfb 3 false).enc = false ∧ (toyCfb 3 false).sB = (toyCfb 3 true).sB ∧
      (toyCfb 3 false).key = (toyCfb 3 true).key ∧ (toyCfb 3 false).IV = (toyCfb 3 true).IV := by decide

theorem witness_CtrDecryptsWithTheSameOperation :
    ({ toyCtr iv4 with ko := 0 } : Ctr).key = (toyCtr iv4).key ∧ ({ toyCtr iv4 with ko := 0 } : Ctr).IV = (toyCtr iv4).IV :=
  ⟨rfl, rfl⟩

/-- The first and the last byte of `P10`. -/
theorem witness_CfbKeystreamInClosedForm : (toyCfb 3 true).Inv toy ∧ 0 < p10.length ∧ 9 < p10.length := by
  refine ⟨?_, by decide, by decide⟩
  constructor <;> decide

theorem witness_DividingSegmentsGiveFullBlockCfb :
    (toyCfb 2 true).Inv toy ∧ (toyCfb 4 true).Inv toy ∧ (toyCfb 2 true).sB ∣ toy.P_B ∧ (toyCfb 4 true).sB = toy.P_B ∧
      (toyCfb 4 true).key = (toyCfb 2 true).key ∧ (toyCfb 4 true).IV = (toyCfb 2 true).IV ∧
      (toyCfb 4 true).enc = (toyCfb 2 true).enc := by
  refine ⟨?_, witness_StatusAndCfginfoShowTheirFields, ⟨2, by decide⟩, by decide, rfl, rfl, rfl⟩
  constructor <;> decide

theorem witness_CtrKeystreamInClosedForm :
    (toyCtr iv4).Inv toy ∧ 9 < p10.length ∧ (toyCtr (List.replicate 4 255#8)).CTR = List.replicate toy.P_B 255#8 := by
  refine ⟨?_, by decide, by decide⟩
  constructor <;> decide

/-- A pending byte, and messages of one and of two words. -/
theorem witness_PendingBytesSitInTheTopOfM :
    0 < (count 9).length % 8 ∧ ((count 8).length ≠ 0 ∧ (count 8).length % 8 = 0) ∧
      (count 16).length ≠ 0 ∧ (count 16).length % 8 = 0 := by decide

theorem witness_TheSourcesKnownAnswerHolds :
    ready.sip.inited = true ∧ ready.sip.c = 2#8 ∧ ready.sip.d = 4#8 ∧ ready.sip.k0 = 0x0706050403020100#64 ∧
      ready.sip.k1 = 0x0f0e0d0c0b0a0908#64 ∧ ready.sip = ready.sip.reset := by decide

theorem witness_UpdnEqualsOneUpdPerByte : ready.sip.inited = true ∧ (1#32).toNat + (4095#32).toNat ≤ 4096 := by decide

theorem witness_FinLeavesTheStateResetGives :
    (∃ t, exec .sipFin ready = .next t ∧ t.err = .ok) ∧ (∃ t, exec .sipFin64 ready = .next t ∧ t.err = .ok) ∧
      ∃ r, exec .sipReset ready = .next r := ⟨⟨_, rfl, rfl⟩, ⟨_, rfl, rfl⟩, ⟨_, rfl⟩⟩

theorem witness_FinsBytesAreFin64sResults :
    ({ ready with aOutoff := 4088#32 } : State).sip.inited = true ∧ (4088#32).toNat + 8 ≤ 4096 := by decide

/-- A state other than reset: a byte in IN_BUF, three bytes absorbed and a command waiting. -/
def busy : State :=
  { State.reset with
    mem := [(0x1000, 7#8)], sip := (count 3).foldl Sip.absorb demoSip, port := [.write CMD 4 0x00000023#32] }

theorem witness_EveryStepKeepsTheInvariant : busy.Inv Config.params ∧ ∃ t, step busy = .next t := by
  have h := P_B_pos Config.params
  refine ⟨⟨?_, ?_, ?_, ?_⟩, ⟨_, rfl⟩⟩
  · constructor <;> simp [busy, State.reset, State.powerOn, Cfb.powerOn] <;> omega
  · constructor <;> simp [busy, State.reset, State.powerOn, Ctr.powerOn]
  · constructor <;> decide
  · decide

/-- Two states that differ in hidden state alone, and a read of each kind of outcome. -/
theorem witness_HostReadsShowNoHiddenState :
    SameToHost (waiting [.read STATUS 4])
        { waiting [.read STATUS 4] with sip := { Sip.powerOn with k0 := 1#64 }, readLog := [3#32] } ∧
      (waiting [.read STATUS 4]).port = .read STATUS 4 :: [] :=
  ⟨⟨rfl, rfl, rfl, rfl, rfl, rfl, rfl, rfl, rfl, rfl, rfl, rfl, rfl, rfl, rfl, rfl, rfl, rfl, rfl⟩, rfl⟩

/-- A memory that differs in the first byte of KEY_BUF and the last of IV_BUF. -/
theorem witness_KeyAndIvBuffersReachUnitsOnlyThroughInit :
    IsInit .sipUpdn = false ∧
      ∀ a, ¬ (0x100 ≤ a ∧ a < 0x300) → Memory.read [(0x100, 1#8), (0x2FF, 2#8)] a = ready.mem.read a := by
  refine ⟨rfl, fun a h => ?_⟩
  have h1 : a ≠ 0x100 := by omega
  have h2 : a ≠ 0x2FF := by omega
  simp [Memory.read, Memory.lookup, h1, h2, ready, State.reset, State.powerOn]

end Sys2Proof.Tests
end

section
/-! The bus (20_memory §3): a step faults exactly on an access that is not admitted, and no admitted access is split. -/

namespace Sys2Proof.Machine

/-- Every command answers a next state: an error is reported in STATUS, never by a fault (60_exceptions R244). -/
theorem exec_eq_next (i : Instr) (s : State) : ∃ t, exec i s = .next t := by
  cases i <;> exact ⟨_, rfl⟩

/-- A word written to CMD answers a next state, whether it is a command or illegal (40_engine R120). -/
theorem runCommand_eq_next (w : Word) (s : State) : ∃ t, runCommand w s = .next t := by
  obtain ⟨i, -, hrun⟩ | ⟨e, -, hrun⟩ := runCommand_cases w s
  · obtain ⟨t, ht⟩ := exec_eq_next i s
    exact ⟨t, hrun.trans ht⟩
  · exact ⟨_, hrun⟩

theorem perform_read_eq_busError_iff (off n : Nat) (s : State) :
    perform (.read off n) s = .fault .busError ↔ admission off n = .busError := by
  cases h : admission off n <;> simp [perform, h]

/-- An admitted write to CMD is the one case that runs a command, and a command does not fault. -/
theorem perform_write_eq_busError_iff (off n : Nat) (v : Word) (s : State) :
    perform (.write off n v) s = .fault .busError ↔ admission off n = .busError := by
  cases h : admission off n with
  | admitted =>
    obtain ⟨t, ht⟩ := runCommand_eq_next v s
    simp only [perform, h, ht]
    split_ifs <;> simp
  | busError => simp [perform, h]
  | outside => simp [perform, h]

/-- With an access of `n` bytes at `off` waiting, of either kind, the step faults exactly when it is not admitted. -/
theorem step_eq_busError_iff {s : State} {a : Access} {rest : List Access} {off n : Nat} (hp : s.port = a :: rest)
    (ha : a = .read off n ∨ ∃ v, a = .write off n v) :
    step s = .fault .busError ↔ admission off n = .busError := by
  rw [step_cons hp]
  obtain rfl | ⟨v, rfl⟩ := ha
  · exact perform_read_eq_busError_iff off n _
  · exact perform_write_eq_busError_iff off n v _

/-- Inside the window a bus error is exactly a width or alignment that 20_memory R67 does not admit. -/
theorem admission_eq_busError_iff {off : Nat} (n : Nat) (h : off < 0x3000) :
    admission off n = .busError ↔ ¬ widthAdmitted off n = true := by
  rw [admission_inside n h]
  split_ifs with hw <;> simp [hw]

/-- Settles O7: a step faults exactly when the width rule rejects the access, and an access the rule accepts stays within
one area because every area boundary is a multiple of 4. -/
theorem busErrorsAreExactlyTheUnadmittedAccesses : Obligations.BusErrorsAreExactlyTheUnadmittedAccesses := by
  intro s a rest off n hp hoff ha
  have hfault : step s = .fault .busError ↔ ¬ widthAdmitted off n = true :=
    (step_eq_busError_iff hp ha).trans (admission_eq_busError_iff n hoff)
  refine ⟨hfault.trans (not_congr (widthAdmitted_iff off n)), fun hok i hi => ?_⟩
  have hw : widthAdmitted off n = true := not_not.mp (mt hfault.mpr hok)
  exact areaOf_add_of_widthAdmitted hw hi

end Sys2Proof.Machine
end

section
/-! Illegal words (30_encoding §3): a word matches a row exactly when OP and UNIT name the row's cell, RSV is 0 and every
field the cell does not free is 0; and the rows' cells are the cells of the opcode map that are not reserved. -/

namespace Sys2Proof

open Sys2Proof.Machine Sys2Proof.Claims

/-! ## A word is its fields (30_encoding R91) -/

/-- Two words with the same fields are the same: the fields cover all 32 bits. -/
theorem word_eq_iff_fields (w v : Word) :
    w = v ↔ fieldOp w = fieldOp v ∧ fieldUnit w = fieldUnit v ∧ fieldEnc w = fieldEnc v ∧ fieldKp w = fieldKp v ∧
      fieldIvp w = fieldIvp v ∧ fieldRsv w = fieldRsv v ∧ fieldImmA w = fieldImmA v ∧ fieldImmB w = fieldImmB v := by
  refine ⟨fun h => by simp [h], fun ⟨hop, hunit, henc, hkp, hivp, hrsv, ha, hb⟩ => ?_⟩
  have field_bit : ∀ {lo len : Nat}, w.extractLsb' lo len = v.extractLsb' lo len →
      ∀ j, lo ≤ j → j < lo + len → w.getLsbD j = v.getLsbD j := by
    intro lo len h j h1 h2
    have hbit := congrArg (fun x => x.getLsbD (j - lo)) h
    simpa [show j - lo < len by omega, show lo + (j - lo) = j by omega] using hbit
  refine BitVec.eq_of_getLsbD_eq fun j hj => ?_
  obtain h | h | rfl | rfl | rfl | h | h | h : j < 4 ∨ (4 ≤ j ∧ j < 6) ∨ j = 6 ∨ j = 7 ∨ j = 8 ∨ (9 ≤ j ∧ j < 16) ∨
      (16 ≤ j ∧ j < 24) ∨ 24 ≤ j := by omega
  · exact field_bit hop j (Nat.zero_le j) (by omega)
  · exact field_bit hunit j h.1 h.2
  · exact henc
  · exact hkp
  · exact hivp
  · exact field_bit hrsv j h.1 h.2
  · exact field_bit ha j h.1 h.2
  · exact field_bit hb j h (by omega)

@[simp] theorem fieldOp_and (w m : Word) : fieldOp (w &&& m) = fieldOp w &&& fieldOp m := BitVec.extractLsb'_and
@[simp] theorem fieldUnit_and (w m : Word) : fieldUnit (w &&& m) = fieldUnit w &&& fieldUnit m :=
  BitVec.extractLsb'_and
@[simp] theorem fieldEnc_and (w m : Word) : fieldEnc (w &&& m) = (fieldEnc w && fieldEnc m) := BitVec.getLsbD_and
@[simp] theorem fieldKp_and (w m : Word) : fieldKp (w &&& m) = (fieldKp w && fieldKp m) := BitVec.getLsbD_and
@[simp] theorem fieldIvp_and (w m : Word) : fieldIvp (w &&& m) = (fieldIvp w && fieldIvp m) := BitVec.getLsbD_and
@[simp] theorem fieldRsv_and (w m : Word) : fieldRsv (w &&& m) = fieldRsv w &&& fieldRsv m := BitVec.extractLsb'_and
@[simp] theorem fieldImmA_and (w m : Word) : fieldImmA (w &&& m) = fieldImmA w &&& fieldImmA m :=
  BitVec.extractLsb'_and
@[simp] theorem fieldImmB_and (w m : Word) : fieldImmB (w &&& m) = fieldImmB w &&& fieldImmB m :=
  BitVec.extractLsb'_and

/-! ## The rows against the opcode map (30_encoding R95, R96) -/

/-- Every row fixes OP, UNIT and RSV, RSV to 0, and every other field that it fixes it fixes to 0. -/
theorem rows_fixedFields : ∀ r ∈ rows,
    fieldOp r.mask = BitVec.allOnes 4 ∧ fieldUnit r.mask = BitVec.allOnes 2 ∧ fieldRsv r.mask = BitVec.allOnes 7 ∧
      fieldRsv r.pat = 0#7 ∧ fieldEnc r.pat = false ∧ fieldKp r.pat = false ∧ fieldIvp r.pat = false ∧
      fieldImmA r.pat = 0#8 ∧ fieldImmB r.pat = 0#8 := by
  decide

/-- A row leaves ENC, KP, IVP, IMM_A and IMM_B free exactly where 30_encoding R96 frees them for its cell. -/
theorem rows_freeFields : ∀ r ∈ rows,
    fieldEnc r.mask = !decide ((fieldOp r.pat).toNat = 1 ∧ (fieldUnit r.pat).toNat ≠ 2) ∧
      fieldKp r.mask = !decide ((fieldOp r.pat).toNat = 1) ∧ fieldIvp r.mask = !decide ((fieldOp r.pat).toNat = 1) ∧
      fieldImmA r.mask =
        (if (fieldOp r.pat).toNat = 0 ∧ (fieldUnit r.pat).toNat ≠ 1 then 0#8 else BitVec.allOnes 8) ∧
      fieldImmB r.mask =
        (if (fieldOp r.pat).toNat = 0 ∧ (fieldUnit r.pat).toNat = 2 then 0#8 else BitVec.allOnes 8) := by
  decide

/-- The cells that have a row are those of a unit other than 3 that the opcode map does not reserve. -/
theorem exists_row_iff : ∀ (unit : BitVec 2) (op : BitVec 4),
    (∃ r ∈ rows, fieldUnit r.pat = unit ∧ fieldOp r.pat = op) ↔
      unit.toNat ≠ 3 ∧ ¬ IsReservedCell unit.toNat op.toNat := by
  unfold IsReservedCell
  decide

/-- A flag masked out where it is free is 0 exactly when it is not a constrained flag that is set. -/
theorem flag_and_not_free_eq_false_iff (b : Bool) (free : Prop) [Decidable free] :
    (b && !decide free) = false ↔ ¬ (b = true ∧ ¬ free) := by
  by_cases h : free <;> simp [h]

/-- An immediate masked out where it is free is 0 exactly when it is not a constrained immediate other than 0. -/
theorem imm_and_not_free_eq_zero_iff (x : Byte) (free : Prop) [Decidable free] :
    x &&& (if free then 0#8 else BitVec.allOnes 8) = 0#8 ↔ ¬ (x ≠ 0#8 ∧ ¬ free) := by
  by_cases h : free <;> simp only [h, if_true, if_false, BitVec.and_allOnes] <;> simp

/-- A word matches a row exactly when it is in the row's cell, its RSV is 0 and so is every field the cell constrains. -/
theorem row_matches_iff {r : Row} (hr : r ∈ rows) (w : Word) :
    w &&& r.mask = r.pat ↔ (fieldUnit r.pat = fieldUnit w ∧ fieldOp r.pat = fieldOp w) ∧ fieldRsv w = 0#7 ∧
      ¬ HasConstrainedField w (fieldUnit w).toNat (fieldOp w).toNat := by
  obtain ⟨hop, hunit, hrsv, hrsv0, henc0, hkp0, hivp0, ha0, hb0⟩ := rows_fixedFields r hr
  obtain ⟨henc, hkp, hivp, ha, hb⟩ := rows_freeFields r hr
  simp only [word_eq_iff_fields, fieldOp_and, fieldUnit_and, fieldEnc_and, fieldKp_and, fieldIvp_and, fieldRsv_and,
    fieldImmA_and, fieldImmB_and, hop, hunit, hrsv, hrsv0, henc0, hkp0, hivp0, ha0, hb0, BitVec.and_allOnes]
  by_cases hcell : fieldUnit r.pat = fieldUnit w ∧ fieldOp r.pat = fieldOp w
  · obtain ⟨hu, ho⟩ := hcell
    simp only [henc, hkp, hivp, ha, hb, hu, ho, flag_and_not_free_eq_false_iff, imm_and_not_free_eq_zero_iff,
      HasConstrainedField, not_or, true_and]
    exact ⟨fun ⟨he, hk, hi, hr, himm⟩ => ⟨hr, he, hk, hi, himm⟩, fun ⟨hr, he, hk, hi, himm⟩ => ⟨he, hk, hi, hr, himm⟩⟩
  · simp only [hcell, false_and, iff_false]
    exact fun h => hcell ⟨h.2.1.symm, h.1.symm⟩

/-! ## Legal and illegal words (30_encoding R97, R98) -/

/-- A word is rejected exactly when it matches no row. -/
theorem decode_eq_error_iff (w : Word) : (∃ e, decode w = .error e) ↔ ∀ r ∈ rows, w &&& r.mask ≠ r.pat := by
  unfold decode
  cases h : rows.find? (fun r => w &&& r.mask == r.pat) with
  | none => simpa using h
  | some r =>
    have hr : r ∈ rows ∧ w &&& r.mask = r.pat := ⟨List.mem_of_find?_eq_some h, by simpa using List.find?_some h⟩
    simpa using ⟨r, hr⟩

/-- 30_encoding R98: the words that match no row are those of the four bullets. -/
theorem decode_eq_error_iff_isIllegalWord (w : Word) : (∃ e, decode w = .error e) ↔ IsIllegalWord w := by
  have hcell := exists_row_iff (fieldUnit w) (fieldOp w)
  calc (∃ e, decode w = .error e)
      ↔ ¬ ∃ r ∈ rows, w &&& r.mask = r.pat := by simp only [decode_eq_error_iff, not_exists, not_and, ne_eq]
    _ ↔ ¬ ((∃ r ∈ rows, fieldUnit r.pat = fieldUnit w ∧ fieldOp r.pat = fieldOp w) ∧ fieldRsv w = 0#7 ∧
          ¬ HasConstrainedField w (fieldUnit w).toNat (fieldOp w).toNat) := by
        rw [exists_congr fun r => and_congr_right fun hr => row_matches_iff hr w]
        simp only [← and_assoc, exists_and_right]
    _ ↔ IsIllegalWord w := by
        rw [hcell, IsIllegalWord]
        tauto

end Sys2Proof

namespace Sys2Proof.Machine

open Sys2Proof.Claims

/-- A 32-bit write to CMD is always admitted: the step runs its word (20_memory R67, 40_engine R120). -/
theorem step_commandWrite {s : State} {w : Word} {rest : List Access} (hp : s.port = .write CMD 4 w :: rest) :
    step s = runCommand w { s with port := rest } :=
  (step_cons hp).trans rfl

/-- An illegal word raises ERR_ILLEGAL, whatever the reason (30_encoding R98). -/
theorem runCommand_of_isIllegalWord {w : Word} (h : IsIllegalWord w) (s : State) :
    runCommand w s = .next (s.raise .illegal) := by
  obtain ⟨e, he⟩ := (decode_eq_error_iff_isIllegalWord w).mpr h
  simp only [runCommand, he]

/-- Settles O3: the rows cover exactly the free cells of the opcode map, each with its constrained fields 0, so a word
outside them has one of the four reasons; running it raises ERR_ILLEGAL. -/
theorem illegalWordsAreThoseOfTheFourReasons : Obligations.IllegalWordsAreThoseOfTheFourReasons := by
  intro w
  exact ⟨decode_eq_error_iff_isIllegalWord w, fun s rest hp hw =>
    (step_commandWrite hp).trans (runCommand_of_isIllegalWord hw _)⟩

end Sys2Proof.Machine
end

section
/-! Units (30_encoding R92): a command of one unit commutes with replacing the other two. -/

namespace Sys2Proof.Machine

open Sys2Proof.Claims

/-- The state with the units that the UNIT field `unit` does not select replaced by `c`, `k` and `p`. -/
def State.replaceOthers (unit : BitVec 2) (c : Cfb) (k : Ctr) (p : Sip) (s : State) : State :=
  { s with
    cfb := if unit = 0#2 then s.cfb else c
    ctr := if unit = 1#2 then s.ctr else k
    sip := if unit = 2#2 then s.sip else p }

section
variable (unit : BitVec 2) (c : Cfb) (k : Ctr) (p : Sip) (s : State)

/-! ## What replacing the other units leaves alone -/

@[simp] theorem State.replaceOthers_aByte : (s.replaceOthers unit c k p).aByte = s.aByte := rfl
@[simp] theorem State.replaceOthers_cfb : (s.replaceOthers 0#2 c k p).cfb = s.cfb := rfl
@[simp] theorem State.replaceOthers_ctr : (s.replaceOthers 1#2 c k p).ctr = s.ctr := rfl

@[simp] theorem State.replaceOthers_inputBytes : (s.replaceOthers unit c k p).inputBytes = s.inputBytes := rfl

@[simp] theorem keyCheck_replaceOthers (P : Params) (kp keyed : Bool) :
    keyCheck P kp keyed (s.replaceOthers unit c k p) = keyCheck P kp keyed s := rfl

/-- Replacing the other units by themselves changes nothing. -/
@[simp] theorem State.replaceOthers_self : s.replaceOthers unit s.cfb s.ctr s.sip = s := by
  simp [State.replaceOthers]

/-! ## The command forms commute with it -/

@[simp] theorem State.finish_replaceOthers (r0 r1 : Word) :
    (s.replaceOthers unit c k p).finish r0 r1 = (s.finish r0 r1).replaceOthers unit c k p := rfl
@[simp] theorem nameCommand_replaceOthers (str : List Byte) :
    nameCommand str (s.replaceOthers unit c k p) = (nameCommand str s).replaceOthers unit c k p := rfl
@[simp] theorem sizeQuery_replaceOthers :
    sizeQuery (s.replaceOthers unit c k p) = (sizeQuery s).replaceOthers unit c k p := rfl
@[simp] theorem aadCommand_replaceOthers :
    aadCommand (s.replaceOthers unit c k p) = (aadCommand s).replaceOthers unit c k p := rfl

section
variable {U : Type} {K : KeystreamUnit U} (P : Params)
  (hget : ∀ s : State, K.get (s.replaceOthers unit c k p) = K.get s)
  (hset : ∀ (s : State) (u : U), K.set (s.replaceOthers unit c k p) u = (K.set s u).replaceOthers unit c k p)
include hget hset

/-- PROC of a keystream unit that the replacement keeps. -/
theorem proc_replaceOthers :
    proc P K (s.replaceOthers unit c k p) = (proc P K s).replaceOthers unit c k p := by
  simp only [proc, hget, hset, State.replaceOthers_inputBytes, apply_ite (State.replaceOthers unit c k p)]
  rfl

/-- PROCB of a keystream unit that the replacement keeps. -/
theorem procByte_replaceOthers :
    procByte P K (s.replaceOthers unit c k p) = (procByte P K s).replaceOthers unit c k p := by
  simp only [procByte, hget, hset, State.replaceOthers_aByte, apply_ite (State.replaceOthers unit c k p)]
  rfl

omit hset in
/-- FINAL of a keystream unit that the replacement keeps. -/
theorem finalCommand_replaceOthers :
    finalCommand K (s.replaceOthers unit c k p) = (finalCommand K s).replaceOthers unit c k p := by
  simp only [finalCommand, hget, apply_ite (State.replaceOthers unit c k p)]
  rfl

end

/-! ## The commands with checks of their own commute with it -/

theorem cfbCfg_replaceOthers (P : Params) (immA : Byte) :
    cfbCfg P immA (s.replaceOthers 0#2 c k p) = (cfbCfg P immA s).replaceOthers 0#2 c k p := by
  simp only [cfbCfg, apply_ite (State.replaceOthers 0#2 c k p)]
  rfl

theorem cfbInit_replaceOthers (P : Params) (enc kp ivp : Bool) :
    cfbInit P enc kp ivp (s.replaceOthers 0#2 c k p) = (cfbInit P enc kp ivp s).replaceOthers 0#2 c k p := by
  cases h : keyCheck P kp s.cfb.keyed s with
  | none =>
    simp only [cfbInit, keyCheck_replaceOthers, State.replaceOthers_cfb, h, apply_ite (State.replaceOthers 0#2 c k p)]
    rfl
  | some code =>
    simp only [cfbInit, keyCheck_replaceOthers, State.replaceOthers_cfb, h, apply_ite (State.replaceOthers 0#2 c k p)]
    rfl

theorem ctrInit_replaceOthers (P : Params) (enc kp ivp : Bool) :
    ctrInit P enc kp ivp (s.replaceOthers 1#2 c k p) = (ctrInit P enc kp ivp s).replaceOthers 1#2 c k p := by
  cases h : keyCheck P kp s.ctr.keyed s with
  | none =>
    simp only [ctrInit, keyCheck_replaceOthers, State.replaceOthers_ctr, h, apply_ite (State.replaceOthers 1#2 c k p)]
    rfl
  | some code =>
    simp only [ctrInit, keyCheck_replaceOthers, State.replaceOthers_ctr, h, apply_ite (State.replaceOthers 1#2 c k p)]
    rfl

theorem sipInit_replaceOthers (kp ivp : Bool) :
    sipInit kp ivp (s.replaceOthers 2#2 c k p) = (sipInit kp ivp s).replaceOthers 2#2 c k p := by
  simp only [sipInit, apply_ite (State.replaceOthers 2#2 c k p)]
  rfl

theorem sipUpdn_replaceOthers : sipUpdn (s.replaceOthers 2#2 c k p) = (sipUpdn s).replaceOthers 2#2 c k p := by
  simp only [sipUpdn, apply_ite (State.replaceOthers 2#2 c k p)]
  rfl

theorem sipUpd_replaceOthers : sipUpd (s.replaceOthers 2#2 c k p) = (sipUpd s).replaceOthers 2#2 c k p := by
  simp only [sipUpd, apply_ite (State.replaceOthers 2#2 c k p)]
  rfl

theorem sipFin_replaceOthers : sipFin (s.replaceOthers 2#2 c k p) = (sipFin s).replaceOthers 2#2 c k p := by
  simp only [sipFin, apply_ite (State.replaceOthers 2#2 c k p)]
  rfl

theorem sipFin64_replaceOthers : sipFin64 (s.replaceOthers 2#2 c k p) = (sipFin64 s).replaceOthers 2#2 c k p := by
  simp only [sipFin64, apply_ite (State.replaceOthers 2#2 c k p)]
  rfl

end

/-! ## Every command commutes with it -/

section
variable (c : Cfb) (k : Ctr) (p : Sip) {s t : State}

/-- A command commutes with the replacement when its meaning does. -/
theorem exec_replaceOthers_of_commutes {i : Instr} {unit : BitVec 2} {f : State → State} (h : exec i s = .next t)
    (hf : ∀ s, exec i s = .next (f s))
    (hcomm : f (s.replaceOthers unit c k p) = (f s).replaceOthers unit c k p) :
    exec i (s.replaceOthers unit c k p) = .next (t.replaceOthers unit c k p) := by
  rw [hf] at h ⊢
  obtain rfl := Host.Outcome.next.inj h
  rw [hcomm]

/-- A command reads and writes no unit but its own: replacing the others before it or after it is the same. -/
theorem exec_replaceOthers {i : Instr} (h : exec i s = .next t) :
    exec i (s.replaceOthers (unitOf i) c k p) = .next (t.replaceOthers (unitOf i) c k p) := by
  cases i <;> simp only [unitOf, encode, plainWord, fieldUnit_commandWord] <;>
    refine exec_replaceOthers_of_commutes c k p h (fun _ => rfl) ?_
  case cfbCfg immA => exact cfbCfg_replaceOthers c k p s _ immA
  case cfbInit enc kp ivp => exact cfbInit_replaceOthers c k p s _ enc kp ivp
  case ctrInit enc kp ivp => exact ctrInit_replaceOthers c k p s _ enc kp ivp
  case cfbProc | ctrProc => exact proc_replaceOthers _ c k p s _ (fun _ => rfl) fun _ _ => rfl
  case cfbProcb | ctrProcb => exact procByte_replaceOthers _ c k p s _ (fun _ => rfl) fun _ _ => rfl
  case cfbFinal | ctrFinal => exact finalCommand_replaceOthers _ c k p s fun _ => rfl
  case sipInit kp ivp => exact sipInit_replaceOthers c k p s kp ivp
  case sipUpdn => exact sipUpdn_replaceOthers c k p s
  case sipUpd => exact sipUpd_replaceOthers c k p s
  case sipFin => exact sipFin_replaceOthers c k p s
  case sipFin64 => exact sipFin64_replaceOthers c k p s
  case ctrCfg | sipCfg | cfbReset | ctrReset | sipReset => rfl
  case cfbName | ctrName | sipName => exact nameCommand_replaceOthers _ c k p s _
  case cfbUosz | cfbOsz | ctrUosz | ctrOsz => exact sizeQuery_replaceOthers _ c k p s
  case cfbAadb | cfbAadn | ctrAadb | ctrAadn => exact aadCommand_replaceOthers _ c k p s
  case sipMacsz => exact State.finish_replaceOthers _ c k p s _ _

/-- A command leaves the units it does not select unchanged: it commutes with replacing them by themselves. -/
theorem exec_eq_replaceOthers {i : Instr} (h : exec i s = .next t) :
    t = t.replaceOthers (unitOf i) s.cfb s.ctr s.sip := by
  have hself := exec_replaceOthers s.cfb s.ctr s.sip h
  rw [State.replaceOthers_self, h] at hself
  exact Host.Outcome.next.inj hself

end

/-- No command has UNIT = 3 (30_encoding R92, R95). -/
theorem unitOf_ne_three (i : Instr) : unitOf i ≠ 3#2 := by
  cases i <;> simp [unitOf, encode, plainWord]

/-- Settles O20: a command commutes with replacing the units it does not select; replacing them by themselves gives the
frame, and replacing them by any others gives the same error, results, memory and own unit. -/
theorem aCommandTouchesOnlyItsOwnUnit : Obligations.ACommandTouchesOnlyItsOwnUnit := by
  refine ⟨fun w hw => (decode_eq_error_iff_isIllegalWord w).mpr (Or.inl (by simp [hw])), fun i s t h => ?_⟩
  have frame := exec_eq_replaceOthers h
  refine ⟨unitOf_ne_three i, fun hu => ?_, fun hu => ?_, fun hu => ?_, fun c k p =>
    ⟨_, exec_replaceOthers c k p h, rfl, rfl, rfl, rfl, fun hu => ?_, fun hu => ?_, fun hu => ?_⟩⟩
  · exact (congrArg State.cfb frame).trans (if_neg hu)
  · exact (congrArg State.ctr frame).trans (if_neg hu)
  · exact (congrArg State.sip frame).trans (if_neg hu)
  · exact if_pos hu
  · exact if_pos hu
  · exact if_pos hu

end Sys2Proof.Machine
end

section
/-! RESET (40_engine R127): each unit's reset is idempotent and depends only on what it keeps. An INIT that succeeds ends
with a reset of its unit, so a RESET after it changes nothing. -/

namespace Sys2Proof.Machine

open Sys2Proof.Claims

/-! ## The units' resets -/

/-- A reset CFB unit is fixed by its session, but for the keystream block (40_engine R134). -/
theorem Cfb.reset_of_sameSession (P : Params) {u w : Cfb} (h : SameCfbSession u w) :
    u.reset P = { w.reset P with KB := u.KB } := by
  obtain ⟨hsB, henc, hkeyed, hinited, hkey, hIV⟩ := h
  simp only [Cfb.reset, hsB, henc, hkeyed, hinited, hkey, hIV]

/-- A reset CTR unit is fixed by its session, but for the keystream block (40_engine R134). -/
theorem Ctr.reset_of_sameSession (P : Params) {u w : Ctr} (h : SameCtrSession u w) :
    u.reset P = { w.reset P with KB := u.KB } := by
  obtain ⟨hkeyed, hinited, hkey, hIV⟩ := h
  simp only [Ctr.reset, hkeyed, hinited, hkey, hIV]

/-- A reset SIP unit is fixed by its session. -/
theorem Sip.reset_of_sameSession {u w : Sip} (h : SameSipSession u w) : u.reset = w.reset := by
  obtain ⟨hc, hd, hinited, hk0, hk1⟩ := h
  simp only [Sip.reset, hc, hd, hinited, hk0, hk1]

@[simp] theorem Cfb.reset_reset (P : Params) (u : Cfb) : (u.reset P).reset P = u.reset P := rfl
@[simp] theorem Ctr.reset_reset (P : Params) (u : Ctr) : (u.reset P).reset P = u.reset P := rfl
@[simp] theorem Sip.reset_reset (u : Sip) : u.reset.reset = u.reset := rfl

@[simp] theorem Cfb.reset_powerOn (P : Params) : (Cfb.powerOn P).reset P = Cfb.powerOn P := rfl
@[simp] theorem Ctr.reset_powerOn (P : Params) : (Ctr.powerOn P).reset P = Ctr.powerOn P := rfl
@[simp] theorem Sip.reset_powerOn : Sip.powerOn.reset = Sip.powerOn := rfl

@[simp] theorem State.reset_cfb : State.reset.cfb = Cfb.powerOn Config.params := rfl
@[simp] theorem State.reset_ctr : State.reset.ctr = Ctr.powerOn Config.params := rfl
@[simp] theorem State.reset_sip : State.reset.sip = Sip.powerOn := rfl

/-! ## RESET of a unit that has just been reset -/

theorem exec_cfbReset_of_reset (s : State) (u : Cfb) :
    exec .cfbReset ((s.setCfb (u.reset Config.params)).finish 0#32 0#32) =
      .next ((s.setCfb (u.reset Config.params)).finish 0#32 0#32) := by
  rw [exec_cfbReset, State.finish_cfb, State.setCfb_cfb, Cfb.reset_reset]
  rfl

theorem exec_ctrReset_of_reset (s : State) (u : Ctr) :
    exec .ctrReset ((s.setCtr (u.reset Config.params)).finish 0#32 0#32) =
      .next ((s.setCtr (u.reset Config.params)).finish 0#32 0#32) := by
  rw [exec_ctrReset, State.finish_ctr, State.setCtr_ctr, Ctr.reset_reset]
  rfl

theorem exec_sipReset_of_reset (s : State) (u : Sip) :
    exec .sipReset ((s.setSip u.reset).finish 0#32 0#32) = .next ((s.setSip u.reset).finish 0#32 0#32) := by
  rw [exec_sipReset, State.finish_sip, State.setSip_sip, Sip.reset_reset]
  rfl

/-! ## A successful INIT ends with a reset (41_cfb R152, 42_ctr R182, 43_siphash R202) -/

/-- A key check that fails names an error. -/
theorem keyCheck_ne_ok (P : Params) (kp keyed : Bool) (s : State) : keyCheck P kp keyed s ≠ some .ok := by
  obtain ⟨h, -⟩ | ⟨h, -⟩ | ⟨h, -⟩ | ⟨h, -⟩ := keyCheck_cases P kp keyed s <;> simp [h]

/-- A CFB.INIT that ends with OK has passed all its checks. -/
theorem cfbInit_of_err_ok {P : Params} {enc kp ivp : Bool} {s : State} (h : (cfbInit P enc kp ivp s).err = .ok) :
    cfbInit P enc kp ivp s =
      (s.setCfb (s.cfb.initialised P enc kp ivp s.keyOperand s.ivOperand)).finish 0#32 0#32 := by
  unfold cfbInit at h ⊢
  by_cases hiv : (ivp && decide (P.P_B < s.ivLen)) = true
  · rw [if_pos hiv] at h
    cases h
  · rw [if_neg hiv] at h ⊢
    cases hk : keyCheck P kp s.cfb.keyed s with
    | none => rfl
    | some code =>
      rw [hk] at h
      obtain rfl : code = .ok := h
      exact absurd hk (keyCheck_ne_ok P kp s.cfb.keyed s)

/-- A CTR.INIT that ends with OK has passed all its checks. -/
theorem ctrInit_of_err_ok {P : Params} {enc kp ivp : Bool} {s : State} (h : (ctrInit P enc kp ivp s).err = .ok) :
    ctrInit P enc kp ivp s =
      (s.setCtr (s.ctr.initialised P kp s.keyOperand (s.mem.readBytes IV_BASE P.P_B))).finish 0#32 0#32 := by
  unfold ctrInit at h ⊢
  by_cases hiv : (!ivp) = true
  · rw [if_pos hiv] at h
    cases h
  by_cases hlen : s.ivLen ≠ P.P_B
  · rw [if_neg hiv, if_pos hlen] at h
    cases h
  · rw [if_neg hiv, if_neg hlen] at h ⊢
    cases hk : keyCheck P kp s.ctr.keyed s with
    | none => rfl
    | some code =>
      rw [hk] at h
      obtain rfl : code = .ok := h
      exact absurd hk (keyCheck_ne_ok P kp s.ctr.keyed s)

/-- A SIP.INIT that ends with OK has passed all its checks. -/
theorem sipInit_of_err_ok {kp ivp : Bool} {s : State} (h : (sipInit kp ivp s).err = .ok) :
    sipInit kp ivp s = (s.setSip (s.sip.initialised (s.mem.readBytes KEY_BASE 16))).finish 0#32 0#32 := by
  unfold sipInit at h ⊢
  split_ifs at h ⊢
  · cases h
  · cases h
  · rfl

section
variable {enc kp ivp : Bool} {s t : State}

theorem exec_cfbInit_ends_with_reset (h : exec (.cfbInit enc kp ivp) s = .next t) (hok : t.err = .ok) :
    ∃ u : Cfb, t = (s.setCfb (u.reset Config.params)).finish 0#32 0#32 := by
  obtain rfl := Host.Outcome.next.inj h
  exact ⟨_, cfbInit_of_err_ok hok⟩

theorem exec_ctrInit_ends_with_reset (h : exec (.ctrInit enc kp ivp) s = .next t) (hok : t.err = .ok) :
    ∃ u : Ctr, t = (s.setCtr (u.reset Config.params)).finish 0#32 0#32 := by
  obtain rfl := Host.Outcome.next.inj h
  exact ⟨_, ctrInit_of_err_ok hok⟩

theorem exec_sipInit_ends_with_reset (h : exec (.sipInit kp ivp) s = .next t) (hok : t.err = .ok) :
    ∃ u : Sip, t = (s.setSip u.reset).finish 0#32 0#32 := by
  obtain rfl := Host.Outcome.next.inj h
  exact ⟨_, sipInit_of_err_ok hok⟩

end

/-- Settles O34: a RESET of a reset unit changes nothing, which gives idempotence and, since a successful INIT ends with a
reset, the fixed point after INIT; and a reset unit is fixed by its session, but for KB. -/
theorem resetIsIdempotentAndKeepsTheKey : Obligations.ResetIsIdempotentAndKeepsTheKey := by
  refine ⟨?_, fun enc kp ivp s t h hok => ?_, fun enc kp ivp s t h hok => ?_, fun kp ivp s t h hok => ?_,
    fun enc kp ivp s t s' h hok hs => ?_, fun enc kp ivp s t s' h hok hs => ?_, fun kp ivp s t s' h hok hs => ?_⟩
  · rintro i s (rfl | rfl | rfl)
    · refine ⟨_, exec_cfbReset s, exec_cfbReset_of_reset s s.cfb, ?_⟩
      simp +contextual
    · refine ⟨_, exec_ctrReset s, exec_ctrReset_of_reset s s.ctr, ?_⟩
      simp +contextual
    · refine ⟨_, exec_sipReset s, exec_sipReset_of_reset s s.sip, ?_⟩
      simp +contextual
  · obtain ⟨u, rfl⟩ := exec_cfbInit_ends_with_reset h hok
    exact exec_cfbReset_of_reset s u
  · obtain ⟨u, rfl⟩ := exec_ctrInit_ends_with_reset h hok
    exact exec_ctrReset_of_reset s u
  · obtain ⟨u, rfl⟩ := exec_sipInit_ends_with_reset h hok
    exact exec_sipReset_of_reset s u
  · obtain ⟨u, rfl⟩ := exec_cfbInit_ends_with_reset h hok
    exact ⟨_, exec_cfbReset s', Cfb.reset_of_sameSession (w := u.reset _) _ hs⟩
  · obtain ⟨u, rfl⟩ := exec_ctrInit_ends_with_reset h hok
    exact ⟨_, exec_ctrReset s', Ctr.reset_of_sameSession (w := u.reset _) _ hs⟩
  · obtain ⟨u, rfl⟩ := exec_sipInit_ends_with_reset h hok
    exact ⟨_, exec_sipReset s', Sip.reset_of_sameSession (w := u.reset) hs⟩

end Sys2Proof.Machine
end

section
/-! The commands that process nothing: FINAL, the size queries, the AAD commands (40_engine R137, R138, R141) and any
processing of no bytes (R135). -/

namespace Sys2Proof.Machine

open Sys2Proof.Claims

/-! ## FINAL, the size queries and the AAD commands -/

section
variable {U : Type} {K : KeystreamUnit U} {s : State}

theorem finalCommand_of_inited (h : K.inited (K.get s) = true) : finalCommand K s = s.finish 0#32 0#32 := by
  obtain ⟨hnot, -⟩ | ⟨-, heq⟩ := finalCommand_cases K s
  · simp [h] at hnot
  · exact heq

theorem finalCommand_of_not_inited (h : K.inited (K.get s) = false) : finalCommand K s = s.raise .illegalState := by
  obtain ⟨-, heq⟩ | ⟨hin, -⟩ := finalCommand_cases K s
  · exact heq
  · simp [h] at hin

end

/-- Settles O32: FINAL of either unit only tests `inited`, and then finishes or raises. -/
theorem finalProducesNothing : Obligations.FinalProducesNothing :=
  ⟨fun s h => (exec_cfbFinal s).trans (congrArg _ (finalCommand_of_inited h)),
    fun s h => (exec_ctrFinal s).trans (congrArg _ (finalCommand_of_inited h)),
    fun s h => (exec_cfbFinal s).trans (congrArg _ (finalCommand_of_not_inited h)),
    fun s h => (exec_ctrFinal s).trans (congrArg _ (finalCommand_of_not_inited h))⟩

/-- Settles O36: the four size queries are one command form, which finishes with A_LEN. -/
theorem sizeQueriesReturnTheLengthAndMacszEight : Obligations.SizeQueriesReturnTheLengthAndMacszEight := by
  refine ⟨?_, by decide, exec_sipMacsz⟩
  rintro i s (rfl | rfl | rfl | rfl)
  · exact exec_cfbUosz s
  · exact exec_cfbOsz s
  · exact exec_ctrUosz s
  · exact exec_ctrOsz s

/-- Settles O37: the four AAD commands are one command form, which raises ERR_UNSUPPORTED. -/
theorem aadCommandsAreUnsupported : Obligations.AadCommandsAreUnsupported := by
  rintro i s (rfl | rfl | rfl | rfl)
  · exact exec_cfbAadb s
  · exact exec_cfbAadn s
  · exact exec_ctrAadb s
  · exact exec_ctrAadn s

/-! ## Processing no bytes (40_engine R135) -/

@[simp] theorem Memory.readBytes_zero (m : Memory) (addr : Nat) : m.readBytes addr 0 = [] := rfl

@[simp] theorem State.writeMem_nil (s : State) (addr : Nat) : s.writeMem addr [] = s := rfl

@[simp] theorem Cfb.feedback_nil (u : Cfb) : u.feedback [] [] = u := by simp [Cfb.feedback]

@[simp] theorem Ctr.feedback_eq (u : Ctr) (xs ys : List Byte) : u.feedback xs ys = u := rfl

/-- With no input the loop does not run: all that is left is the last feedback call, on an empty run. -/
theorem engine_nil {U : Type} (P : Params) (H : Hooks U) (u : U) : engine P H u [] = (H.feedback u [] [], []) :=
  engineLoop_nil P H u [] []

@[simp] theorem cfb_engine_nil (P : Params) (u : Cfb) : engine P (Cfb.hooks P) u [] = (u, []) := by
  simp [engine_nil]

@[simp] theorem ctr_engine_nil (P : Params) (u : Ctr) : engine P (Ctr.hooks P) u [] = (u, []) := by
  simp [engine_nil]

theorem State.inputBytes_of_aLen_zero {s : State} (h : s.aLen = 0#32) : s.inputBytes = [] := by
  simp [State.inputBytes, h]

/-- PROC of an initialised unit whose input and output ranges fit (40_engine R139). -/
theorem proc_of_fits {U : Type} {P : Params} {K : KeystreamUnit U} {s : State} (hinit : K.inited (K.get s) = true)
    (hin : s.inOff + s.len ≤ P_BUF) (hout : s.outOff + s.len ≤ P_BUF) :
    proc P K s =
      ((K.set s (engine P K.hooks (K.get s) s.inputBytes).1).writeMem (OUT_BASE + s.outOff)
        (engine P K.hooks (K.get s) s.inputBytes).2).finish s.aLen 0#32 := by
  obtain ⟨hnot, -⟩ | ⟨-, hnot, -⟩ | ⟨-, -, hnot, -⟩ | ⟨-, -, -, heq⟩ := proc_cases P K s
  · simp [hinit] at hnot
  · exact absurd hin hnot
  · exact absurd hout hnot
  · exact heq

/-- PROC of no bytes, of a unit that the engine leaves as it is on no bytes. -/
theorem proc_of_aLen_zero {U : Type} {P : Params} {K : KeystreamUnit U} {s : State}
    (hengine : engine P K.hooks (K.get s) [] = (K.get s, [])) (hset : K.set s (K.get s) = s)
    (hinit : K.inited (K.get s) = true) (hlen : s.aLen = 0#32) (hin : s.aInoff.toNat ≤ 4096)
    (hout : s.aOutoff.toNat ≤ 4096) : proc P K s = s.finish 0#32 0#32 := by
  have hin' : s.inOff + s.len ≤ P_BUF := by simpa [hlen, P_BUF_eq] using hin
  have hout' : s.outOff + s.len ≤ P_BUF := by simpa [hlen, P_BUF_eq] using hout
  rw [proc_of_fits hinit hin' hout', State.inputBytes_of_aLen_zero hlen, hengine, hset, State.writeMem_nil, hlen]

/-- SIP.UPDN of an initialised unit whose input range fits (43_siphash R209). -/
theorem sipUpdn_of_fits {s : State} (hinit : s.sip.inited = true) (hin : s.inOff + s.len ≤ P_BUF) :
    sipUpdn s = (s.setSip (s.inputBytes.foldl Sip.absorb s.sip)).finish 0#32 0#32 := by
  rw [sipUpdn, if_neg (by simp [hinit]), if_neg (by simpa [fits] using hin)]

/-- SIP.UPDN of no bytes. -/
theorem sipUpdn_of_aLen_zero {s : State} (hinit : s.sip.inited = true) (hlen : s.aLen = 0#32)
    (hin : s.aInoff.toNat ≤ 4096) : sipUpdn s = s.finish 0#32 0#32 := by
  have hin' : s.inOff + s.len ≤ P_BUF := by simpa [hlen, P_BUF_eq] using hin
  rw [sipUpdn_of_fits hinit hin', State.inputBytes_of_aLen_zero hlen]
  rfl

/-- Settles O44: on no bytes the engine's one feedback call is on an empty run, which neither unit's hook acts on; PROC
then writes back the unit it read and stores nothing, and UPDN absorbs nothing. -/
theorem zeroLengthProcessingChangesNothing : Obligations.ZeroLengthProcessingChangesNothing := by
  refine ⟨cfb_engine_nil, ctr_engine_nil, fun s hinit hlen hin hout => ?_, fun s hinit hlen hin hout => ?_,
    fun s hinit hlen hin => ?_⟩
  · exact (exec_cfbProc s).trans
      (congrArg _ (proc_of_aLen_zero (cfb_engine_nil _ _) rfl hinit hlen hin hout))
  · exact (exec_ctrProc s).trans
      (congrArg _ (proc_of_aLen_zero (ctr_engine_nil _ _) rfl hinit hlen hin hout))
  · exact (exec_sipUpdn s).trans (congrArg _ (sipUpdn_of_aLen_zero hinit hlen hin))

end Sys2Proof.Machine
end

section
/-! The byte-serial form (40_engine R131, 41_cfb R158): an engine whose feedback hook takes a run byte by byte and keeps
off the keystream leaves what one step per byte leaves. The CFB unit's hook is such a hook. -/

namespace Sys2Proof.Machine

open Sys2Proof.Claims

/-! ## A per-byte step applied in order -/

section
variable {U : Type} (f : U → Byte → U × Byte)

@[simp] theorem serial_nil (u : U) : serial f u [] = (u, []) := rfl

@[simp] theorem serial_cons (u : U) (x : Byte) (xs : List Byte) :
    serial f u (x :: xs) = ((serial f (f u x).1 xs).1, (f u x).2 :: (serial f (f u x).1 xs).2) := rfl

theorem serial_append (u : U) (xs ys : List Byte) :
    serial f u (xs ++ ys) =
      ((serial f (serial f u xs).1 ys).1, (serial f u xs).2 ++ (serial f (serial f u xs).1 ys).2) := by
  induction xs generalizing u with
  | nil => simp
  | cons x xs ih => simp [ih]

end

/-! ## The engine one byte at a time -/

/-- The unit with a readable keystream byte: an exhausted block is regenerated first (40_engine R131). -/
def Hooks.refresh {U : Type} (P : Params) (H : Hooks U) (u : U) : U :=
  if H.ko u = P.P_B then H.setKo (H.generate u) 0 else u

/-- One byte through the hooks, with the run of that byte flushed at once. -/
def Hooks.byteStep {U : Type} (P : Params) (H : Hooks U) (u : U) (x : Byte) : U × Byte :=
  let v := H.refresh P u
  let y := x ^^^ H.keyByte v
  (H.feedback (H.setKo v (H.ko v + 1)) [x] [y], y)

/-- A feedback hook that may be called later, on longer runs, without a difference: it takes a run byte by byte, keeps the
keystream, and does not depend on the cursor (the argument of 41_cfb R158). -/
structure Hooks.Deferrable {U : Type} (H : Hooks U) : Prop where
  feedback_nil (u : U) : H.feedback u [] [] = u
  feedback_snoc (u : U) (rx ry : List Byte) (x y : Byte) :
    H.feedback u (rx ++ [x]) (ry ++ [y]) = H.feedback (H.feedback u rx ry) [x] [y]
  ko_feedback (u : U) (rx ry : List Byte) : H.ko (H.feedback u rx ry) = H.ko u
  KB_feedback (u : U) (rx ry : List Byte) : H.KB (H.feedback u rx ry) = H.KB u
  feedback_setKo (u : U) (n : Nat) (rx ry : List Byte) :
    H.feedback (H.setKo u n) rx ry = H.setKo (H.feedback u rx ry) n

section
variable {U : Type} {P : Params} {H : Hooks U}

theorem Hooks.refresh_of_exhausted {u : U} (h : H.ko u = P.P_B) : H.refresh P u = H.setKo (H.generate u) 0 := if_pos h

theorem Hooks.refresh_of_inside {u : U} (h : H.ko u ≠ P.P_B) : H.refresh P u = u := if_neg h

theorem Hooks.Deferrable.keyByte_feedback (hH : H.Deferrable) (u : U) (rx ry : List Byte) :
    H.keyByte (H.feedback u rx ry) = H.keyByte u := by
  simp only [Hooks.keyByte, hH.ko_feedback, hH.KB_feedback]

/-- The loop with a pending run is the byte-serial form from the unit to which that run has been fed back. -/
theorem Hooks.Deferrable.engineLoop_eq_serial (hH : H.Deferrable) (u : U) (rx ry xs : List Byte) :
    engineLoop P H u rx ry xs = serial (H.byteStep P) (H.feedback u rx ry) xs := by
  induction xs generalizing u rx ry with
  | nil => rfl
  | cons x xs ih =>
    by_cases h : H.ko u = P.P_B
    · have hflushed : H.ko (H.feedback u rx ry) = P.P_B := (hH.ko_feedback u rx ry).trans h
      simp only [engineLoop_exhausted P H u rx ry x xs h, serial_cons, Hooks.byteStep,
        Hooks.refresh_of_exhausted hflushed, ih]
    · have hflushed : H.ko (H.feedback u rx ry) ≠ P.P_B := (hH.ko_feedback u rx ry).trans_ne h
      simp only [engineLoop_inside P H u rx ry x xs h, serial_cons, Hooks.byteStep,
        Hooks.refresh_of_inside hflushed, ih, hH.feedback_snoc, hH.feedback_setKo, hH.ko_feedback,
        hH.keyByte_feedback]

theorem Hooks.Deferrable.engine_eq_serial (hH : H.Deferrable) (u : U) (xs : List Byte) :
    engine P H u xs = serial (H.byteStep P) u xs := by
  rw [engine, hH.engineLoop_eq_serial, hH.feedback_nil]

/-- Two calls are one call on both inputs (40_engine R133). -/
theorem Hooks.Deferrable.engine_append (hH : H.Deferrable) (u : U) (xs ys : List Byte) :
    engine P H u (xs ++ ys) =
      ((engine P H (engine P H u xs).1 ys).1, (engine P H u xs).2 ++ (engine P H (engine P H u xs).1 ys).2) := by
  simp only [hH.engine_eq_serial, serial_append]

end

/-! ## The CFB feedback hook (41_cfb R156) -/

/-- Staging a run keeps the direction, the keystream block and the cursor. -/
theorem Cfb.foldl_stage_keeps (bs : List Byte) (u : Cfb) :
    (bs.foldl Cfb.stage u).enc = u.enc ∧ (bs.foldl Cfb.stage u).KB = u.KB ∧ (bs.foldl Cfb.stage u).ko = u.ko := by
  induction bs generalizing u with
  | nil => exact ⟨rfl, rfl, rfl⟩
  | cons b bs ih =>
    obtain ⟨-, henc, -, -, -, -, hKB, hko⟩ := Cfb.stage_frame u b
    simpa only [List.foldl_cons, henc, hKB, hko] using ih (u.stage b)

theorem Cfb.foldl_stage_setKo (bs : List Byte) (u : Cfb) (n : Nat) :
    bs.foldl Cfb.stage { u with ko := n } = { bs.foldl Cfb.stage u with ko := n } := by
  induction bs generalizing u with
  | nil => rfl
  | cons b bs ih => rw [List.foldl_cons, Cfb.stage_setKo, ih, List.foldl_cons]

/-- A run of one byte stages its ciphertext byte. -/
theorem Cfb.feedback_singleton (u : Cfb) (x y : Byte) : u.feedback [x] [y] = u.stage (if u.enc then y else x) := by
  simp only [Cfb.feedback]
  split <;> rfl

theorem Cfb.feedback_snoc (u : Cfb) (rx ry : List Byte) (x y : Byte) :
    u.feedback (rx ++ [x]) (ry ++ [y]) = (u.feedback rx ry).feedback [x] [y] := by
  obtain ⟨henc, -, -⟩ := Cfb.foldl_stage_keeps (if u.enc then ry else rx) u
  rw [Cfb.feedback_singleton]
  simp only [Cfb.feedback, henc]
  split <;> simp

theorem Cfb.hooks_deferrable (P : Params) : (Cfb.hooks P).Deferrable where
  feedback_nil := Cfb.feedback_nil
  feedback_snoc := Cfb.feedback_snoc
  ko_feedback u rx ry := by
    obtain ⟨-, -, hko⟩ := Cfb.foldl_stage_keeps (if u.enc then ry else rx) u
    exact hko
  KB_feedback u rx ry := by
    obtain ⟨-, hKB, -⟩ := Cfb.foldl_stage_keeps (if u.enc then ry else rx) u
    exact hKB
  feedback_setKo u n rx ry := Cfb.foldl_stage_setKo (if u.enc then ry else rx) u n

/-- The hooks' step of the CFB unit is `step` of 41_cfb R158. -/
theorem Cfb.byteStep_eq (P : Params) : (Cfb.hooks P).byteStep P = cfbByteStep P := by
  funext u x
  exact Prod.ext (Cfb.feedback_singleton _ _ _) rfl

theorem cfb_engine_eq_serial (P : Params) (u : Cfb) (xs : List Byte) :
    engine P (Cfb.hooks P) u xs = serial (cfbByteStep P) u xs := by
  rw [(Cfb.hooks_deferrable P).engine_eq_serial, Cfb.byteStep_eq]

/-- Settles O40: the pending run of the loop is what the byte-serial form has staged already, by induction on the input;
and the byte-serial form of two inputs joined is that of the one after the other. -/
theorem cfbEngineEqualsTheByteSerialForm : Obligations.CfbEngineEqualsTheByteSerialForm := fun P u xs ys =>
  ⟨cfb_engine_eq_serial P u xs, by rw [(Cfb.hooks_deferrable P).engine_append]⟩

end Sys2Proof.Machine
end

section
/-! The CFB round trip (41_cfb R167): an encrypting and a decrypting unit that stage the same ciphertext stay in step. -/

namespace Sys2Proof.Machine

open Sys2Proof.Claims

/-- `u` encrypts and `w` decrypts, with the same chaining state. An exhausted keystream block is not read again, so
there the blocks may differ (40_engine R134). -/
structure Cfb.InStep (P : Params) (u w : Cfb) : Prop where
  encrypts : u.enc = true
  decrypts : w.enc = false
  sB : w.sB = u.sB
  key : w.key = u.key
  V : w.V = u.V
  FB : w.FB = u.FB
  cf : w.cf = u.cf
  ko : w.ko = u.ko
  KB : u.ko ≠ P.P_B → w.KB = u.KB

section
variable {P : Params} {u w : Cfb}

/-- Two units with the same segment size, key and IV are in step at their reset. -/
theorem Cfb.InStep.of_reset (henc : u.enc = true) (hdec : w.enc = false) (hsB : w.sB = u.sB) (hkey : w.key = u.key)
    (hIV : w.IV = u.IV) : Cfb.InStep P (u.reset P) (w.reset P) where
  encrypts := henc
  decrypts := hdec
  sB := hsB
  key := hkey
  V := hIV
  FB := congrArg zeros hsB
  cf := rfl
  ko := rfl
  KB := fun h => absurd rfl h

/-- Both units regenerate together, and from the same shift register. -/
theorem Cfb.InStep.refresh (h : Cfb.InStep P u w) :
    Cfb.InStep P ((Cfb.hooks P).refresh P u) ((Cfb.hooks P).refresh P w) ∧
      ((Cfb.hooks P).refresh P w).KB = ((Cfb.hooks P).refresh P u).KB := by
  by_cases hko : u.ko = P.P_B
  · have hKB : P.E w.key w.V = P.E u.key u.V := by rw [h.key, h.V]
    rw [Hooks.refresh_of_exhausted (H := Cfb.hooks P) hko,
      Hooks.refresh_of_exhausted (H := Cfb.hooks P) (h.ko.trans hko)]
    exact ⟨⟨h.encrypts, h.decrypts, h.sB, h.key, h.V, h.FB, h.cf, rfl, fun _ => hKB⟩, hKB⟩
  · rw [Hooks.refresh_of_inside (H := Cfb.hooks P) hko,
      Hooks.refresh_of_inside (H := Cfb.hooks P) (h.ko.trans_ne hko)]
    exact ⟨h, h.KB hko⟩

theorem Cfb.InStep.setKo (h : Cfb.InStep P u w) (hKB : w.KB = u.KB) (n : Nat) :
    Cfb.InStep P ((Cfb.hooks P).setKo u n) ((Cfb.hooks P).setKo w n) :=
  ⟨h.encrypts, h.decrypts, h.sB, h.key, h.V, h.FB, h.cf, rfl, fun _ => hKB⟩

/-- Staging the same ciphertext byte keeps two units in step: both fold, or neither does. -/
theorem Cfb.InStep.stage (h : Cfb.InStep P u w) (b : Byte) : Cfb.InStep P (u.stage b) (w.stage b) := by
  obtain ⟨henc, hdec, hsB, hkey, hV, hFB, hcf, hko, hKB⟩ := h
  simp only [Cfb.stage, hsB, hV, hFB, hcf]
  split
  · exact ⟨henc, hdec, rfl, hkey, rfl, rfl, rfl, hko, hKB⟩
  · exact ⟨henc, hdec, rfl, hkey, rfl, rfl, rfl, hko, hKB⟩

/-- The output run of the encrypting unit is the input run of the decrypting one, and it is what both stage. -/
theorem Cfb.InStep.feedback (h : Cfb.InStep P u w) (x y z : Byte) :
    Cfb.InStep P ((Cfb.hooks P).feedback u [x] [y]) ((Cfb.hooks P).feedback w [y] [z]) := by
  simpa [Cfb.feedback_singleton, h.encrypts, h.decrypts] using h.stage y

/-- One byte: the decrypting unit returns the plaintext byte, since both XOR the same keystream byte and stage the same
ciphertext byte. -/
theorem Cfb.InStep.byteStep (h : Cfb.InStep P u w) (x : Byte) :
    let c := (Cfb.hooks P).byteStep P u x
    let p := (Cfb.hooks P).byteStep P w c.2
    Cfb.InStep P c.1 p.1 ∧ p.2 = x := by
  obtain ⟨hv, hKB⟩ := h.refresh
  have hkeyByte : (Cfb.hooks P).keyByte ((Cfb.hooks P).refresh P w) =
      (Cfb.hooks P).keyByte ((Cfb.hooks P).refresh P u) := by
    simp only [Hooks.keyByte, Cfb.hooks_KB, Cfb.hooks_ko, hKB, hv.ko]
  simp only [Hooks.byteStep, hkeyByte, Cfb.hooks_ko, hv.ko]
  exact ⟨(hv.setKo hKB _).feedback _ _ _, by rw [BitVec.xor_assoc, BitVec.xor_self, BitVec.xor_zero]⟩

/-- Units in step stay so over any plaintext, and the plaintext comes back (41_cfb R167). -/
theorem Cfb.InStep.engine (h : Cfb.InStep P u w) (plain : List Byte) :
    let c := Machine.engine P (Cfb.hooks P) u plain
    let p := Machine.engine P (Cfb.hooks P) w c.2
    Cfb.InStep P c.1 p.1 ∧ p.2 = plain := by
  simp only [(Cfb.hooks_deferrable P).engine_eq_serial]
  induction plain generalizing u w with
  | nil => exact ⟨h, rfl⟩
  | cons x xs ih =>
    obtain ⟨hnext, hx⟩ := h.byteStep x
    obtain ⟨hlast, hxs⟩ := ih hnext
    exact ⟨hlast, congrArg₂ List.cons hx hxs⟩

end

/-- Settles O45: both units are in step at their reset, and every byte keeps them in step. -/
theorem cfbDecryptsWhatItEncrypts : Obligations.CfbDecryptsWhatItEncrypts := by
  intro P u w plain henc hdec hsB hkey hIV
  obtain ⟨hstep, hplain⟩ := (Cfb.InStep.of_reset (P := P) henc hdec hsB hkey hIV).engine plain
  exact ⟨hplain, hstep.V, hstep.cf⟩

/-- Settles O33: each RESET is its unit's reset, stored back. -/
theorem resetRestoresTheChainingState : Obligations.ResetRestoresTheChainingState := fun s =>
  ⟨exec_cfbReset s, exec_ctrReset s, exec_sipReset s⟩

end Sys2Proof.Machine
end

section
/-! Big-endian byte strings (00_scope R14) and `inc` (42_ctr R181): byte strings of one length are the numbers below a power
of 256, and the successor there is the bytewise increment with carry. -/

namespace Sys2Proof.Machine

open Sys2Proof.Claims

/-! ## The first byte and the rest -/

@[simp] theorem beInt_nil : beInt [] = 0 := rfl

theorem beInt_concat (bs : List Byte) (b : Byte) : beInt (bs ++ [b]) = 256 * beInt bs + b.toNat := by
  simp [beInt]

/-- The first byte is the most significant one. -/
theorem beInt_cons (b : Byte) (bs : List Byte) : beInt (b :: bs) = beInt bs + b.toNat * 256 ^ bs.length := by
  induction bs using List.reverseRecOn with
  | nil => simp [beInt]
  | append_singleton bs a ih =>
    rw [← List.cons_append, beInt_concat, ih, beInt_concat, List.length_append, List.length_singleton, pow_succ]
    ring

theorem beInt_lt (bs : List Byte) : beInt bs < 256 ^ bs.length := by
  induction bs with
  | nil => simp
  | cons b bs ih =>
    have hb : b.toNat * 256 ^ bs.length ≤ 255 * 256 ^ bs.length := Nat.mul_le_mul_right _ (by omega)
    rw [beInt_cons, List.length_cons, pow_succ]
    omega

@[simp] theorem toBe_zero (x : Nat) : toBe 0 x = [] := rfl

theorem toBe_succ (n x : Nat) : toBe (n + 1) x = BitVec.ofNat 8 (x / 256 ^ n) :: toBe n x := by
  simp only [toBe, List.range_succ_eq_map, List.map_cons, List.map_map]
  congr 1
  refine List.map_congr_left fun i _ => ?_
  simp only [Function.comp_apply]
  congr 3
  omega

/-! ## The value modulo a power of 256 -/

theorem beInt_toBe (n x : Nat) : beInt (toBe n x) = x % 256 ^ n := by
  induction n with
  | zero => simp [Nat.mod_one]
  | succ n ih =>
    rw [toBe_succ, beInt_cons, toBe_length, ih, pow_succ, Nat.mod_mul, BitVec.toNat_ofNat, Nat.mul_comm (256 ^ n)]

/-- A multiple of `256 ^ n` is lost in `n` bytes. -/
theorem toBe_add_mul (n x k : Nat) : toBe n (x + k * 256 ^ n) = toBe n x := by
  induction n generalizing k with
  | zero => rfl
  | succ n ih =>
    have hsplit : x + k * 256 ^ (n + 1) = x + k * 256 * 256 ^ n := by ring
    have hhead : BitVec.ofNat 8 (x / 256 ^ n + k * 256) = BitVec.ofNat 8 (x / 256 ^ n) :=
      BitVec.eq_of_toNat_eq (by simp)
    rw [toBe_succ, toBe_succ, hsplit, ih, Nat.add_mul_div_right _ _ (by positivity), hhead]

theorem toBe_mod (n x : Nat) : toBe n (x % 256 ^ n) = toBe n x := by
  conv_rhs => rw [← Nat.mod_add_div' x (256 ^ n), toBe_add_mul]

/-- A byte string is the big-endian form of its value. -/
theorem toBe_beInt (bs : List Byte) : toBe bs.length (beInt bs) = bs := by
  induction bs with
  | nil => rfl
  | cons b bs ih =>
    have hhead : beInt (b :: bs) / 256 ^ bs.length = b.toNat := by
      rw [beInt_cons, Nat.add_mul_div_right _ _ (by positivity), Nat.div_eq_of_lt (beInt_lt bs), Nat.zero_add]
    rw [List.length_cons, toBe_succ, hhead, BitVec.ofNat_toNat, BitVec.setWidth_eq, beInt_cons, toBe_add_mul, ih]

/-! ## The successor -/

theorem inc_toBe (n x : Nat) : inc (toBe n x) = toBe n (x + 1) := by
  rw [inc, toBe_length, beInt_toBe, ← toBe_mod, Nat.mod_add_mod, toBe_mod]

theorem inc_iterate (k : Nat) (X : List Byte) : inc^[k] X = toBe X.length (beInt X + k) := by
  induction k with
  | zero => exact (toBe_beInt X).symm
  | succ k ih => rw [Function.iterate_succ_apply', ih, inc_toBe, Nat.add_assoc]

/-- `inc` of a string is `inc` of its rest behind the first byte, to which the rest may have carried. -/
theorem inc_cons (b : Byte) (bs : List Byte) :
    inc (b :: bs) = (if beInt bs + 1 = 256 ^ bs.length then b + 1#8 else b) :: inc bs := by
  have hsum : beInt (b :: bs) + 1 = beInt bs + 1 + b.toNat * 256 ^ bs.length := by
    rw [beInt_cons]
    omega
  have hhead : (beInt (b :: bs) + 1) / 256 ^ bs.length = (beInt bs + 1) / 256 ^ bs.length + b.toNat := by
    rw [hsum, Nat.add_mul_div_right _ _ (by positivity)]
  rw [inc, List.length_cons, toBe_succ, hhead, hsum, toBe_add_mul, ← inc]
  split_ifs with hcarry
  · rw [hcarry, Nat.div_self (by positivity), Nat.add_comm, BitVec.ofNat_add, BitVec.ofNat_toNat, BitVec.setWidth_eq]
  · have hlt := beInt_lt bs
    rw [Nat.div_eq_of_lt (by omega), Nat.zero_add, BitVec.ofNat_toNat, BitVec.setWidth_eq]

/-- A string is all ones exactly when its first byte is 0xFF and its rest is all ones. -/
theorem beInt_cons_succ_eq_pow_iff (b : Byte) (bs : List Byte) :
    beInt (b :: bs) + 1 = 256 ^ (b :: bs).length ↔ beInt bs + 1 = 256 ^ bs.length ∧ b = 255#8 := by
  have hlt := beInt_lt bs
  have hb : b = 255#8 ↔ b.toNat = 255 := BitVec.toNat_inj.symm
  rw [beInt_cons, List.length_cons, pow_succ, hb]
  refine ⟨fun h => ?_, fun ⟨hrest, hfirst⟩ => by rw [hfirst]; omega⟩
  have hfirst : b.toNat = 255 := by
    by_contra hne
    have hle : b.toNat * 256 ^ bs.length ≤ 254 * 256 ^ bs.length := Nat.mul_le_mul_right _ (by omega)
    omega
  rw [hfirst] at h
  exact ⟨by omega, hfirst⟩

/-- The bytewise increment is `inc`, and it carries out of the string exactly when the string is all ones. -/
theorem carryIncrement_eq (X : List Byte) : carryIncrement X = (inc X, decide (beInt X + 1 = 256 ^ X.length)) := by
  induction X with
  | nil => rfl
  | cons b bs ih =>
    simp only [carryIncrement, ih, inc_cons, beInt_cons_succ_eq_pow_iff, decide_eq_true_eq]
    split_ifs with hcarry
    · simp [hcarry, beq_eq_decide]
    · simp [hcarry]

theorem carryIncrement_replicate (n : Nat) :
    carryIncrement (List.replicate n 255#8) = (List.replicate n 0#8, true) := by
  induction n with
  | zero => rfl
  | succ n ih => simp [List.replicate_succ, carryIncrement, ih]

/-- The all-0xFF string wraps to zeros. -/
theorem inc_replicate (n : Nat) : inc (List.replicate n 255#8) = List.replicate n 0#8 :=
  congrArg Prod.fst ((carryIncrement_eq _).symm.trans (carryIncrement_replicate n))

/-- Settles O49: `inc` is the successor modulo a power of 256 by its definition, and the bytewise increment agrees with it
by induction on the string, the carry telling whether the rest is all ones. -/
theorem incIsTheBytewiseCarry : Obligations.IncIsTheBytewiseCarry := fun X =>
  ⟨inc_length X, beInt_toBe _ _, congrArg Prod.fst (carryIncrement_eq X).symm, inc_replicate⟩

end Sys2Proof.Machine
end

section
/-! The CTR keystream (42_ctr R185, R186, R195): the feedback hook does nothing, so the unit advances without regard to
the input, and the engine XORs the input with a keystream that the unit alone fixes. -/

namespace Sys2Proof.Machine

open Sys2Proof.Claims

/-! ## The byte-serial form (42_ctr R186) -/

theorem Ctr.hooks_deferrable (P : Params) : (Ctr.hooks P).Deferrable where
  feedback_nil _ := rfl
  feedback_snoc _ _ _ _ _ := rfl
  ko_feedback _ _ _ := rfl
  KB_feedback _ _ _ := rfl
  feedback_setKo _ _ _ _ := rfl

/-- The hooks' step of the CTR unit is `step` of 42_ctr R186. -/
theorem Ctr.byteStep_eq (P : Params) : (Ctr.hooks P).byteStep P = ctrByteStep P := rfl

theorem ctr_engine_eq_serial (P : Params) (u : Ctr) (xs : List Byte) :
    engine P (Ctr.hooks P) u xs = serial (ctrByteStep P) u xs := by
  rw [(Ctr.hooks_deferrable P).engine_eq_serial, Ctr.byteStep_eq]

/-- Settles O41: a hook that does nothing may be called at any time, so the engine is the byte-serial form, and two calls
are one call on both inputs. -/
theorem ctrEngineEqualsTheByteSerialForm : Obligations.CtrEngineEqualsTheByteSerialForm := fun P u xs ys =>
  ⟨Ctr.feedback_eq u xs ys, ctr_engine_eq_serial P u xs, by rw [(Ctr.hooks_deferrable P).engine_append]⟩

/-! ## The keystream -/

/-- The unit after one byte, which does not depend on the byte. -/
def Ctr.advance (P : Params) (u : Ctr) : Ctr :=
  let v := (Ctr.hooks P).refresh P u
  (Ctr.hooks P).setKo v (v.ko + 1)

/-- The byte that the unit XORs with input byte `i`. -/
def Ctr.keystream (P : Params) (u : Ctr) (i : Nat) : Byte :=
  (Ctr.hooks P).keyByte ((Ctr.hooks P).refresh P ((Ctr.advance P)^[i] u))

theorem ctrByteStep_eq (P : Params) (u : Ctr) (x : Byte) :
    ctrByteStep P u x = (u.advance P, x ^^^ u.keystream P 0) := rfl

theorem Ctr.keystream_advance (P : Params) (u : Ctr) (i : Nat) :
    (u.advance P).keystream P i = u.keystream P (i + 1) := rfl

/-- The engine of the CTR unit: the unit advances once per byte, and each byte is XORed with its keystream byte. -/
theorem ctr_engine_eq (P : Params) (u : Ctr) (xs : List Byte) :
    engine P (Ctr.hooks P) u xs =
      ((Ctr.advance P)^[xs.length] u, xs.mapIdx fun i x => x ^^^ u.keystream P i) := by
  rw [ctr_engine_eq_serial]
  induction xs generalizing u with
  | nil => rfl
  | cons x xs ih =>
    simp only [serial_cons, ctrByteStep_eq, ih, Ctr.keystream_advance, List.mapIdx_cons, List.length_cons,
      Function.iterate_succ_apply]

theorem ctr_engine_getD (P : Params) (u : Ctr) {xs : List Byte} {i : Nat} (h : i < xs.length) :
    (engine P (Ctr.hooks P) u xs).2.getD i 0#8 = xs.getD i 0#8 ^^^ u.keystream P i := by
  simp [ctr_engine_eq, h]

/-! ## The counter and the keystream after `n` bytes (42_ctr R185) -/

/-- Block `k` of the keystream of `u`, by `k` increments of the IV. -/
def Ctr.block (P : Params) (u : Ctr) (k : Nat) : List Byte := P.E u.key (inc^[k] u.IV)

/-- The unit `v`, which has used up whole blocks of the keystream of `u` before byte `n`: it holds the counter of block
`n / P_B`. -/
structure Ctr.Exhausted (P : Params) (u : Ctr) (n : Nat) (v : Ctr) : Prop where
  key : v.key = u.key
  CTR : v.CTR = inc^[n / P.P_B] u.IV
  boundary : n % P.P_B = 0
  ko : v.ko = P.P_B

/-- The unit `v`, which can read byte `n` of the keystream of `u`: it holds block `n / P_B` and the counter of the next. -/
structure Ctr.Readable (P : Params) (u : Ctr) (n : Nat) (v : Ctr) : Prop where
  key : v.key = u.key
  CTR : v.CTR = inc^[n / P.P_B + 1] u.IV
  KB : v.KB = Ctr.block P u (n / P.P_B)
  ko : v.ko = n % P.P_B

/-- The unit `v` after `n` bytes from the reset of `u`: at a block boundary it is exhausted, inside a block it is
readable. -/
def Ctr.AfterBytes (P : Params) (u : Ctr) (n : Nat) (v : Ctr) : Prop :=
  Ctr.Exhausted P u n v ∨ (n % P.P_B ≠ 0 ∧ Ctr.Readable P u n v)

section
variable {P : Params} {u v : Ctr} {n : Nat}

theorem Ctr.afterBytes_reset : Ctr.AfterBytes P u 0 (u.reset P) :=
  Or.inl ⟨rfl, by rw [Nat.zero_div]; rfl, Nat.zero_mod _, rfl⟩

/-- Regenerating an exhausted unit makes the next byte readable. -/
theorem Ctr.AfterBytes.refresh (h : Ctr.AfterBytes P u n v) : Ctr.Readable P u n ((Ctr.hooks P).refresh P v) := by
  obtain ⟨hkey, hCTR, hboundary, hko⟩ | ⟨-, hread⟩ := h
  · have hKB : P.E v.key v.CTR = Ctr.block P u (n / P.P_B) := by rw [hkey, hCTR, Ctr.block]
    have hnext : inc v.CTR = inc^[n / P.P_B + 1] u.IV := by rw [hCTR, Function.iterate_succ_apply']
    rw [Hooks.refresh_of_exhausted (H := Ctr.hooks P) hko]
    exact ⟨hkey, hnext, hKB, hboundary.symm⟩
  · have hinside : v.ko ≠ P.P_B := hread.ko.trans_ne (Nat.mod_lt n (P_B_pos P)).ne
    rwa [Hooks.refresh_of_inside (H := Ctr.hooks P) hinside]

/-- Reading a byte leads to a block boundary exactly when it is the last byte of its block. -/
theorem Ctr.Readable.advance (h : Ctr.Readable P u n v) :
    Ctr.AfterBytes P u (n + 1) ((Ctr.hooks P).setKo v (v.ko + 1)) := by
  obtain ⟨hkey, hCTR, hKB, hko⟩ := h
  have hsplit := Nat.mod_add_div n P.P_B
  by_cases hlast : n % P.P_B + 1 = P.P_B
  · obtain ⟨hdiv, hmod⟩ : (n + 1) / P.P_B = n / P.P_B + 1 ∧ (n + 1) % P.P_B = 0 :=
      (Nat.div_mod_unique (P_B_pos P)).mpr ⟨by rw [Nat.mul_add]; omega, P_B_pos P⟩
    exact Or.inl ⟨hkey, by rw [hdiv]; exact hCTR, hmod, (congrArg (· + 1) hko).trans hlast⟩
  · have hlt := Nat.mod_lt n (P_B_pos P)
    obtain ⟨hdiv, hmod⟩ : (n + 1) / P.P_B = n / P.P_B ∧ (n + 1) % P.P_B = n % P.P_B + 1 :=
      (Nat.div_mod_unique (P_B_pos P)).mpr ⟨by omega, by omega⟩
    exact Or.inr ⟨by omega,
      hkey, by rw [hdiv]; exact hCTR, by rw [hdiv]; exact hKB, (congrArg (· + 1) hko).trans hmod.symm⟩

/-- The counter has been incremented once per block drawn, the started one included. -/
theorem Ctr.AfterBytes.CTR_eq (h : Ctr.AfterBytes P u n v) : v.CTR = inc^[(n + P.P_B - 1) / P.P_B] u.IV := by
  have hpos := P_B_pos P
  have hsplit := Nat.mod_add_div n P.P_B
  obtain ⟨-, hCTR, hboundary, -⟩ | ⟨hinside, hread⟩ := h
  · have hdrawn : (n + P.P_B - 1) / P.P_B = n / P.P_B :=
      ((Nat.div_mod_unique (c := P.P_B - 1) hpos).mpr ⟨by omega, by omega⟩).1
    rw [hCTR, hdrawn]
  · have hlt := Nat.mod_lt n hpos
    have hdrawn : (n + P.P_B - 1) / P.P_B = n / P.P_B + 1 :=
      ((Nat.div_mod_unique (c := n % P.P_B - 1) hpos).mpr ⟨by rw [Nat.mul_add]; omega, by omega⟩).1
    rw [hread.CTR, hdrawn]

end

section
variable (P : Params) (u : Ctr)

/-- From its reset the unit is where its byte count says, after any number of bytes. -/
theorem Ctr.afterBytes_iterate (n : Nat) : Ctr.AfterBytes P u n ((Ctr.advance P)^[n] (u.reset P)) := by
  induction n with
  | zero => exact Ctr.afterBytes_reset
  | succ n ih =>
    rw [Function.iterate_succ_apply']
    exact ih.refresh.advance

/-- Keystream byte `n` from a reset is byte `n mod P_B` of block `n / P_B`. -/
theorem Ctr.keystream_reset (n : Nat) :
    (u.reset P).keystream P n = (Ctr.block P u (n / P.P_B)).getD (n % P.P_B) 0#8 := by
  have hread := (Ctr.afterBytes_iterate P u n).refresh
  rw [Ctr.keystream, Hooks.keyByte, Ctr.hooks_KB, Ctr.hooks_ko, hread.KB, hread.ko]

end

/-! ## Decryption (42_ctr R195) -/

/-- The keystream from a reset depends on the key and the IV alone. -/
theorem Ctr.keystream_reset_congr (P : Params) {u w : Ctr} (hkey : w.key = u.key) (hIV : w.IV = u.IV) :
    (w.reset P).keystream P = (u.reset P).keystream P := by
  funext n
  rw [Ctr.keystream_reset, Ctr.keystream_reset, Ctr.block, Ctr.block, hkey, hIV]

/-- Settles O46: the two units produce the same keystream from their reset, and XOR with one keystream undoes itself. -/
theorem ctrDecryptsWithTheSameOperation : Obligations.CtrDecryptsWithTheSameOperation := by
  intro P u w plain hkey hIV
  simp only [ctr_engine_eq, Ctr.keystream_reset_congr P hkey hIV, List.mapIdx_mapIdx, true_and]
  refine List.ext_getElem (by simp) fun i _ _ => ?_
  rw [List.getElem_mapIdx, Function.comp_apply, BitVec.xor_assoc, BitVec.xor_self, BitVec.xor_zero]

/-! ## The closed form (42_ctr R185) -/

/-- With an IV of one block, `k` increments of it add `k` to its value. -/
theorem Ctr.block_eq (P : Params) {u : Ctr} (h : u.IV.length = P.P_B) (k : Nat) : Ctr.block P u k = ctrBlock P u k := by
  rw [Ctr.block, inc_iterate, h, ctrBlock]

/-- The counter of a block, and so the block, has period `256 ^ P_B`. -/
theorem ctrBlock_add_period (P : Params) (u : Ctr) (k : Nat) : ctrBlock P u (k + 256 ^ P.P_B) = ctrBlock P u k := by
  have hwrap := toBe_add_mul P.P_B (beInt u.IV + k) 1
  rw [Nat.one_mul, Nat.add_assoc] at hwrap
  rw [ctrBlock, ctrBlock, hwrap]

/-- Settles O50: from its reset every byte keeps the unit where its byte count says, which gives the counter and the
keystream by increments of the IV; the sums, the period and the wrap are those of the big-endian value. -/
theorem ctrKeystreamInClosedForm : Obligations.CtrKeystreamInClosedForm := by
  intro P u xs hinv
  refine ⟨?_, fun i hi => ?_, ctrBlock_add_period P u, fun hones => ?_⟩
  · rw [ctr_engine_eq, (Ctr.afterBytes_iterate P u xs.length).CTR_eq, inc_iterate, hinv.IV_length]
  · rw [ctr_engine_getD P _ hi, Ctr.keystream_reset, Ctr.block_eq P hinv.IV_length]
  · rw [Ctr.generate_CTR, hones, inc_replicate]

end Sys2Proof.Machine
end

section
/-! The ends of SIP.FIN and SIP.FIN64 (43_siphash R213, R216, R222): rounds and folds touch nothing that a reset keeps, so
finalization leaves the reset unit; and the MAC is one 64-bit word, whichever of the two commands returns it. -/

namespace Sys2Proof.Machine

open Sys2Proof.Claims

/-! ## What rounds and folds keep (43_siphash R207, R212) -/

@[simp] theorem Sip.reset_rounds (n : Nat) (u : Sip) : (Sip.rounds n u).reset = u.reset := by
  induction n generalizing u with
  | zero => rfl
  | succ n ih => exact ih u.round

@[simp] theorem Sip.rounds_wc (n : Nat) (u : Sip) : (Sip.rounds n u).wc = u.wc := by
  induction n generalizing u with
  | zero => rfl
  | succ n ih => exact ih u.round

/-- Rounds neither read nor write the partial word. -/
theorem Sip.rounds_setPending (n : Nat) (u : Sip) (m : DWord) (wp : Nat) :
    Sip.rounds n { u with m := m, wp := wp } = { Sip.rounds n u with m := m, wp := wp } := by
  induction n generalizing u with
  | zero => rfl
  | succ n ih => exact ih u.round

@[simp] theorem Sip.reset_fold (u : Sip) (w : DWord) : (u.fold w).reset = u.reset :=
  Sip.reset_rounds u.c.toNat { u with v3 := u.v3 ^^^ w }

@[simp] theorem Sip.fold_wc (u : Sip) (w : DWord) : (u.fold w).wc = u.wc + 1#64 :=
  congrArg (· + 1#64) (Sip.rounds_wc u.c.toNat { u with v3 := u.v3 ^^^ w })

/-- A fold neither reads nor writes the partial word. -/
theorem Sip.fold_setPending (u : Sip) (w m : DWord) (wp : Nat) :
    ({ u with m := m, wp := wp } : Sip).fold w = { u.fold w with m := m, wp := wp } := by
  have hrounds := Sip.rounds_setPending u.c.toNat { u with v3 := u.v3 ^^^ w } m wp
  simp only [Sip.fold, hrounds]

/-- Finalization ends with a reset of the unit it began with (43_siphash R213, R216). -/
@[simp] theorem Sip.finalize_snd (u : Sip) : u.finalize.2 = u.reset := by
  rw [Sip.finalize, Sip.reset_rounds]
  exact Sip.reset_fold u u.finalWord

/-! ## FIN and FIN64 (43_siphash R220, R221) -/

/-- Every outcome of SIP.FIN, with the checks that lead to it. -/
theorem sipFin_cases (s : State) :
    (s.sip.inited = false ∧ sipFin s = s.raise .illegalState) ∨
    (s.sip.inited = true ∧ ¬ s.aOutoff.toNat + 8 ≤ 4096 ∧ sipFin s = s.raise .outputLength) ∨
    (s.sip.inited = true ∧ s.aOutoff.toNat + 8 ≤ 4096 ∧
      sipFin s = ((s.setSip s.sip.reset).writeMem (OUT_BASE + s.aOutoff.toNat) (toLe64 s.sip.finalize.1)).finish
        8#32 0#32) := by
  unfold sipFin fits
  cases hinited : s.sip.inited with
  | false => simp
  | true => by_cases hfit : s.aOutoff.toNat + 8 ≤ 4096 <;> simp [hfit, P_BUF_eq]

/-- Every outcome of SIP.FIN64, with the check that leads to it. -/
theorem sipFin64_cases (s : State) :
    (s.sip.inited = false ∧ sipFin64 s = s.raise .illegalState) ∨
    (s.sip.inited = true ∧
      sipFin64 s = (s.setSip s.sip.reset).finish (s.sip.finalize.1.extractLsb' 0 32)
        (s.sip.finalize.1.extractLsb' 32 32)) := by
  unfold sipFin64
  cases s.sip.inited <;> simp

/-- SIP.FIN that ends with OK has passed its checks, so it has reset its unit. -/
theorem sipFin_sip_of_err_ok {s : State} (hok : (sipFin s).err = .ok) : (sipFin s).sip = s.sip.reset := by
  obtain ⟨-, hfin⟩ | ⟨-, -, hfin⟩ | ⟨-, -, hfin⟩ := sipFin_cases s
  · cases hfin ▸ hok
  · cases hfin ▸ hok
  · simp [hfin]

/-- SIP.FIN64 that ends with OK has passed its check, so it has reset its unit. -/
theorem sipFin64_sip_of_err_ok {s : State} (hok : (sipFin64 s).err = .ok) : (sipFin64 s).sip = s.sip.reset := by
  obtain ⟨-, hfin⟩ | ⟨-, hfin⟩ := sipFin64_cases s
  · cases hfin ▸ hok
  · simp [hfin]

/-- Settles O55: FIN and FIN64 that end with OK set the unit to its reset, which is what SIP.RESET does. -/
theorem finLeavesTheStateResetGives : Obligations.FinLeavesTheStateResetGives := by
  intro i s t r hi ht hok hr
  obtain rfl := Host.Outcome.next.inj hr
  obtain rfl | rfl := hi
  · obtain rfl := Host.Outcome.next.inj ht
    exact sipFin_sip_of_err_ok hok
  · obtain rfl := Host.Outcome.next.inj ht
    exact sipFin64_sip_of_err_ok hok

/-! ## The bytes of the MAC (43_siphash R221, R222) -/

theorem toLe64_getD (x : DWord) {j : Nat} (h : j < 8) : (toLe64 x).getD j 0#8 = x.extractLsb' (8 * j) 8 := by
  simp [toLe64, h]

/-- A part of a run just written reads as the part's bytes. -/
theorem Memory.readBytes_writeBytes_getD (m : Memory) (addr : Nat) {bs : List Byte} {k n j : Nat}
    (hkn : k + n ≤ bs.length) (hj : j < n) :
    ((m.writeBytes addr bs).readBytes (addr + k) n).getD j 0#8 = bs.getD (k + j) 0#8 := by
  have hin : addr ≤ addr + k + j ∧ addr + k + j < addr + bs.length := by omega
  have hoff : addr + k + j - addr = k + j := by omega
  simp [Memory.readBytes, hj, Memory.read_writeBytes, hin, hoff]

/-- Four bytes that are the bytes of `x` from byte `k` on are, little-endian, the 32 bits of `x` from bit `8k` on. -/
theorem wordOfBytes_eq_extractLsb' {bs : List Byte} {x : DWord} {k : Nat}
    (h : ∀ j, j < 4 → bs.getD j 0#8 = x.extractLsb' (8 * (k + j)) 8) :
    wordOfBytes bs = x.extractLsb' (8 * k) 32 := by
  refine BitVec.eq_of_getLsbD_eq fun i hi => ?_
  have hbit := leInt_testBit bs (i / 8) (i % 8) (by omega)
  have hpos : 8 * (k + i / 8) + i % 8 = 8 * k + i := by omega
  rw [Nat.div_add_mod, h _ (by omega), BitVec.getLsbD_extractLsb', hpos] at hbit
  rw [wordOfBytes, BitVec.getLsbD_ofNat, hbit, BitVec.getLsbD_extractLsb']
  simp [hi, Nat.mod_lt]

/-- Half `k / 4` of a word written with `toLe64`, read back little-endian. -/
theorem wordOfBytes_readBytes_toLe64 (m : Memory) (addr : Nat) (x : DWord) {k : Nat} (hk : k + 4 ≤ 8) :
    wordOfBytes ((m.writeBytes addr (toLe64 x)).readBytes (addr + k) 4) = x.extractLsb' (8 * k) 32 :=
  wordOfBytes_eq_extractLsb' fun j hj => by
    rw [Memory.readBytes_writeBytes_getD m addr (by rwa [toLe64_length]) hj, toLe64_getD x (by omega)]

/-- Settles O56: FIN stores the MAC with `toLe64`, whose two halves read back little-endian are the words FIN64 returns. -/
theorem finsBytesAreFin64sResults : Obligations.FinsBytesAreFin64sResults := by
  intro s hinited hfit
  obtain ⟨hoff, -⟩ | ⟨-, hout, -⟩ | ⟨-, -, hfin⟩ := sipFin_cases s
  · exact absurd hinited (by simp [hoff])
  · exact absurd hfit hout
  obtain ⟨hoff, -⟩ | ⟨-, hfin64⟩ := sipFin64_cases s
  · exact absurd hinited (by simp [hoff])
  refine ⟨_, _, exec_sipFin s, exec_sipFin64 s, ?_⟩
  rw [hfin, hfin64, show 0x2004 + s.aOutoff.toNat = OUT_BASE + s.aOutoff.toNat + 4 by rw [OUT_BASE_eq]; omega]
  exact ⟨rfl, rfl, wordOfBytes_readBytes_toLe64 (k := 0) _ _ _ (by decide),
    wordOfBytes_readBytes_toLe64 (k := 4) _ _ _ (by decide)⟩

end Sys2Proof.Machine
end

section
/-! The partial word of the SIP unit (43_siphash R206): bytes absorbed at a word boundary stand, as the little-endian word
of theirs, in the top of `m`, and the eighth folds that word and returns to a boundary. -/

namespace Sys2Proof.Machine

open Sys2Proof.Claims

/-! ## The little-endian word of a byte string -/

/-- Bit `i` of the word is bit `i mod 8` of byte `i / 8`. -/
theorem getLsbD_sipWordOf (bs : List Byte) {i : Nat} (h : i < 64) :
    (sipWordOf bs).getLsbD i = (bs.getD (i / 8) 0#8).getLsbD (i % 8) := by
  induction bs generalizing i with
  | nil => simp [sipWordOf]
  | cons b bs ih =>
    rw [show sipWordOf (b :: bs) = (sipWordOf bs <<< 8) ||| b.setWidth 64 from rfl, BitVec.getLsbD_or,
      BitVec.getLsbD_shiftLeft, BitVec.getLsbD_setWidth]
    by_cases hfirst : i < 8
    · simp [hfirst, h, Nat.div_eq_of_lt, Nat.mod_eq_of_lt]
    · have hdiv : i / 8 = (i - 8) / 8 + 1 := by omega
      have hmod : i % 8 = (i - 8) % 8 := by omega
      rw [ih (by omega), BitVec.getLsbD_of_ge b i (by omega), hdiv, hmod]
      simp [hfirst, h]

/-- The word of fewer than eight bytes moved to the top of `m`, over zeros. -/
def pendingWord (bs : List Byte) : DWord := sipWordOf bs <<< (8 * (8 - bs.length))

theorem getLsbD_pendingWord (bs : List Byte) {i : Nat} (h : i < 64) :
    (pendingWord bs).getLsbD i =
      (!decide (i / 8 < 8 - bs.length) && (bs.getD (i / 8 - (8 - bs.length)) 0#8).getLsbD (i % 8)) := by
  have hlow : i < 8 * (8 - bs.length) ↔ i / 8 < 8 - bs.length := by omega
  have hdiv : (i - 8 * (8 - bs.length)) / 8 = i / 8 - (8 - bs.length) := by omega
  rw [pendingWord, BitVec.getLsbD_shiftLeft, getLsbD_sipWordOf bs (by omega), hdiv]
  by_cases hbelow : i / 8 < 8 - bs.length
  · simp [hlow, hbelow]
  · have hmod : (i - 8 * (8 - bs.length)) % 8 = i % 8 := by omega
    simp [hlow, hbelow, hmod, h]

@[simp] theorem pendingWord_nil : pendingWord [] = 0#64 := rfl

theorem pendingWord_eight {bs : List Byte} (h : bs.length = 8) : pendingWord bs = sipWordOf bs := by
  simp [pendingWord, h]

/-- Shifting the pending bytes down and putting a byte on top appends that byte. -/
theorem pendingWord_concat {bs : List Byte} (h : bs.length < 8) (x : Byte) :
    (pendingWord bs >>> 8) ||| (x.setWidth 64 <<< 56) = pendingWord (bs ++ [x]) := by
  obtain ⟨k, hk⟩ : ∃ k, 8 - bs.length = k + 1 := ⟨7 - bs.length, by omega⟩
  have hk' : 8 - (bs ++ [x]).length = k := by simp; omega
  refine BitVec.eq_of_getLsbD_eq fun i hi => ?_
  rw [getLsbD_pendingWord _ hi, BitVec.getLsbD_or, BitVec.getLsbD_ushiftRight, BitVec.getLsbD_shiftLeft,
    BitVec.getLsbD_setWidth, hk']
  by_cases htop : i < 56
  · have hdiv : (8 + i) / 8 = i / 8 + 1 := by omega
    rw [getLsbD_pendingWord bs (by omega), hk, hdiv, Nat.add_mod_left, Nat.add_sub_add_right]
    by_cases hlow : i / 8 < k
    · simp [htop, hlow]
    · rw [List.getD_append _ _ _ _ (by omega)]
      simp [htop]
  · have hlow : ¬ i / 8 < k := by omega
    have hlast : i / 8 - k = bs.length := by omega
    have hmod : i % 8 = i - 56 := by omega
    have hfit : i - 56 < 64 := by omega
    rw [BitVec.getLsbD_of_ge _ (8 + i) (by omega), hlast, hmod]
    simp [hlow, htop, hi, hfit]

/-- Pending byte `j` of `r` stands at bits `8(8-r+j)+7 : 8(8-r+j)`. -/
theorem extractLsb'_pendingWord {bs : List Byte} {j : Nat} (hlen : bs.length ≤ 8) (hj : j < bs.length) :
    (pendingWord bs).extractLsb' (8 * (8 - bs.length + j)) 8 = bs.getD j 0#8 := by
  refine BitVec.eq_of_getLsbD_eq fun i hi => ?_
  have hdiv : (8 * (8 - bs.length + j) + i) / 8 = 8 - bs.length + j := by omega
  have hmod : (8 * (8 - bs.length + j) + i) % 8 = i := by omega
  rw [BitVec.getLsbD_extractLsb', getLsbD_pendingWord bs (by omega), hdiv, hmod]
  simp [hi]

/-- Below the pending bytes the bits are 0. -/
theorem extractLsb'_zero_pendingWord {bs : List Byte} (hlen : bs.length ≤ 8) :
    (pendingWord bs).extractLsb' 0 (64 - 8 * bs.length) = 0 := by
  refine BitVec.eq_of_getLsbD_eq fun i hi => ?_
  have hlow : i / 8 < 8 - bs.length := by omega
  rw [BitVec.getLsbD_extractLsb', Nat.zero_add, getLsbD_pendingWord bs (by omega)]
  simp [hlow]

/-! ## Absorbing at a word boundary (43_siphash R206, R214) -/

/-- The unit is at a word boundary: no byte is pending and the partial word is 0. -/
structure Sip.AtBoundary (u : Sip) : Prop where
  wp : u.wp = 0
  m : u.m = 0#64

theorem Sip.atBoundary_reset (u : Sip) : u.reset.AtBoundary := ⟨rfl, rfl⟩

section
variable {u : Sip} {bs : List Byte}

/-- With fewer than eight bytes pending before it, a byte goes on top of them. -/
theorem Sip.absorb_setPending (hlen : bs.length < 8) (x : Byte) :
    ({ u with m := pendingWord bs, wp := bs.length } : Sip).absorb x =
      if bs.length = 7 then { u.fold (pendingWord (bs ++ [x])) with wp := 0, m := 0#64 }
      else { u with m := pendingWord (bs ++ [x]), wp := (bs ++ [x]).length } := by
  simp only [Sip.absorb, pendingWord_concat hlen, Sip.fold_setPending, Nat.reduceEqDiff, List.length_append,
    List.length_singleton]

/-- Fewer than eight bytes after a boundary are all pending. -/
theorem Sip.AtBoundary.foldl_absorb (h : u.AtBoundary) (hlen : bs.length < 8) :
    bs.foldl Sip.absorb u = { u with m := pendingWord bs, wp := bs.length } := by
  induction bs using List.reverseRecOn with
  | nil =>
    obtain ⟨hwp, hm⟩ := h
    rw [pendingWord_nil, List.length_nil, ← hm, ← hwp]
    rfl
  | append_singleton bs x ih =>
    rw [List.length_append, List.length_singleton] at hlen
    rw [List.foldl_append, ih (by omega)]
    exact (Sip.absorb_setPending (by omega) x).trans (if_neg (by omega))

/-- Eight bytes after a boundary are folded as one little-endian word, and the unit is at a boundary again. -/
theorem Sip.AtBoundary.foldl_absorb_eight (h : u.AtBoundary) (hlen : bs.length = 8) :
    bs.foldl Sip.absorb u = { u.fold (sipWordOf bs) with wp := 0, m := 0#64 } := by
  rw [← pendingWord_eight hlen]
  cases bs using List.reverseRecOn with
  | nil => cases hlen
  | append_singleton bs x =>
    rw [List.length_append, List.length_singleton] at hlen
    rw [List.foldl_append, h.foldl_absorb (by omega)]
    exact (Sip.absorb_setPending (by omega) x).trans (if_pos (by omega))

end

/-! ## Whole words -/

theorem foldl_absorb_split (u : Sip) (M : List Byte) (n : Nat) :
    M.foldl Sip.absorb u = (M.drop n).foldl Sip.absorb ((M.take n).foldl Sip.absorb u) := by
  rw [← List.foldl_append, List.take_append_drop]

/-- The unit after `q` whole words from the boundary of `u`: at a boundary, with `q` words counted. -/
theorem Sip.AtBoundary.foldl_absorb_words {u : Sip} (h : u.AtBoundary) (q : Nat) {M : List Byte}
    (hlen : M.length = 8 * q) :
    (M.foldl Sip.absorb u).AtBoundary ∧ (M.foldl Sip.absorb u).wc = u.wc + BitVec.ofNat 64 q := by
  induction q generalizing M with
  | zero =>
    obtain rfl := List.length_eq_zero_iff.mp hlen
    exact ⟨h, (BitVec.add_zero u.wc).symm⟩
  | succ q ih =>
    obtain ⟨hboundary, hwc⟩ := ih (M := M.take (8 * q)) (by simp; omega)
    rw [foldl_absorb_split u M (8 * q), hboundary.foldl_absorb_eight (by simp; omega)]
    refine ⟨⟨rfl, rfl⟩, ?_⟩
    simp only [Sip.fold_wc, hwc, BitVec.add_assoc, BitVec.ofNat_add]

/-- The bytes of the message behind its last whole word. -/
def pendingBytes (M : List Byte) : List Byte := M.drop (M.length - M.length % 8)

@[simp] theorem pendingBytes_length (M : List Byte) : (pendingBytes M).length = M.length % 8 := by
  rw [pendingBytes, List.length_drop]
  omega

theorem pendingBytes_getD (M : List Byte) (j : Nat) :
    (pendingBytes M).getD j 0#8 = M.getD (M.length - M.length % 8 + j) 0#8 := by
  simp [pendingBytes]

/-- After a message from a reset the whole words are counted, and the bytes behind them are pending. -/
theorem Sip.foldl_absorb_reset (u : Sip) (M : List Byte) :
    (M.foldl Sip.absorb u.reset).wp = M.length % 8 ∧
      (M.foldl Sip.absorb u.reset).wc = BitVec.ofNat 64 (M.length / 8) ∧
      (M.foldl Sip.absorb u.reset).m = pendingWord (pendingBytes M) := by
  have hlt : M.length % 8 < 8 := Nat.mod_lt _ (by decide)
  obtain ⟨hboundary, hwc⟩ := u.atBoundary_reset.foldl_absorb_words (M.length / 8)
    (M := M.take (M.length - M.length % 8)) (by rw [List.length_take]; omega)
  have hunit := hboundary.foldl_absorb (bs := pendingBytes M) (by rwa [pendingBytes_length])
  rw [pendingBytes, ← foldl_absorb_split, ← pendingBytes] at hunit
  rw [hunit]
  exact ⟨pendingBytes_length M, hwc.trans (BitVec.zero_add _), rfl⟩

/-- A message that ends with a whole word ends with a fold of that word. -/
theorem Sip.foldl_absorb_reset_last_word (u : Sip) {M : List Byte} (hne : M.length ≠ 0) (hmod : M.length % 8 = 0) :
    M.foldl Sip.absorb u.reset =
      { ((M.take (M.length - 8)).foldl Sip.absorb u.reset).fold (sipWordOf (M.drop (M.length - 8))) with
        wp := 0, m := 0#64 } := by
  obtain ⟨hboundary, -⟩ := u.atBoundary_reset.foldl_absorb_words (M.length / 8 - 1)
    (M := M.take (M.length - 8)) (by rw [List.length_take]; omega)
  rw [foldl_absorb_split u.reset M (M.length - 8)]
  exact hboundary.foldl_absorb_eight (by rw [List.length_drop]; omega)

/-- Settles O51: the whole words of the message leave the unit at a boundary, where the rest is the pending word; and when
there is no rest, the last eight bytes were absorbed at the boundary before them. -/
theorem pendingBytesSitInTheTopOfM : Obligations.PendingBytesSitInTheTopOfM := by
  intro u M
  obtain ⟨hwp, hwc, hm⟩ := u.foldl_absorb_reset M
  have hlen : (pendingBytes M).length ≤ 8 := by
    rw [pendingBytes_length]
    omega
  refine ⟨hwp, hwc, fun j hj => ?_, ?_, Sip.foldl_absorb_reset_last_word u⟩
  · have hbyte := extractLsb'_pendingWord hlen (hj.trans_eq (pendingBytes_length M).symm)
    rwa [pendingBytes_length, pendingBytes_getD, ← hm] at hbyte
  · have hzero := extractLsb'_zero_pendingWord hlen
    rwa [pendingBytes_length, ← hm] at hzero

end Sys2Proof.Machine
end

section
/-! Errors (60_exceptions R241 to R248): the code each meaning leaves in STATUS.ERR is the one listed for its command. The
command forms are settled once, for any keystream unit; the checks that an arm makes of its own are settled arm by arm. -/

namespace Sys2Proof.Machine

open Sys2Proof.Claims

/-! ## The checks -/

/-- A range leaves its buffer exactly when it does not fit into it (40_engine R123). -/
theorem leavesBuffer_iff (off n : Nat) : leavesBuffer off n = true ↔ ¬ off + n ≤ P_BUF := by
  simp [leavesBuffer, P_BUF_eq]

/-- The key checks report the error they find, and OK when they find none (41_cfb R152, 42_ctr R182). -/
theorem keyCheck_getD_ok (kp keyed : Bool) (s : State) :
    (keyCheck Config.params kp keyed s).getD .ok = keyError kp keyed s := by
  obtain ⟨heq, rfl, hbad⟩ | ⟨heq, rfl, rfl⟩ | ⟨heq, rfl, hlen, hok⟩ | ⟨heq, rfl, rfl⟩ :=
    keyCheck_cases Config.params kp keyed s
  · rw [heq, keyError, if_pos rfl]
    exact (if_pos hbad).symm
  · rw [heq]
    rfl
  · rw [heq, keyError, if_pos rfl]
    exact (if_neg (not_or.mpr ⟨hlen.not_gt, ne_false_of_eq_true hok⟩)).symm
  · rw [heq]
    rfl

/-! ## The command forms -/

section
variable {U : Type} (P : Params) (K : KeystreamUnit U) (s : State)

theorem proc_err : (proc P K s).err = procError (K.inited (K.get s)) s := by
  obtain ⟨hinit, heq⟩ | ⟨hinit, hin, heq⟩ | ⟨hinit, hin, hout, heq⟩ | ⟨hinit, hin, hout, heq⟩ := proc_cases P K s
  · simp [heq, procError, hinit]
  · simp [heq, procError, hinit, leavesBuffer_iff, hin]
  · simp [heq, procError, hinit, leavesBuffer_iff, hin, hout]
  · simp [heq, procError, hinit, leavesBuffer_iff, hin, hout]

theorem procByte_err : (procByte P K s).err = needsInit (K.inited (K.get s)) := by
  obtain ⟨hinit, heq⟩ | ⟨hinit, heq⟩ := procByte_cases P K s <;> simp [heq, hinit, needsInit]

theorem finalCommand_err : (finalCommand K s).err = needsInit (K.inited (K.get s)) := by
  obtain ⟨hinit, heq⟩ | ⟨hinit, heq⟩ := finalCommand_cases K s <;> simp [heq, hinit, needsInit]

end

/-! ## The commands with checks of their own -/

section
variable (s : State)

theorem cfbCfg_err (immA : Byte) : (cfbCfg Config.params immA s).err = expectedError (.cfbCfg immA) s :=
  apply_ite State.err _ _ _

theorem cfbInit_err (enc kp ivp : Bool) :
    (cfbInit Config.params enc kp ivp s).err = expectedError (.cfbInit enc kp ivp) s := by
  simp only [cfbInit, expectedError, ← keyCheck_getD_ok, apply_ite State.err]
  cases keyCheck Config.params kp s.cfb.keyed s <;> simp

theorem ctrInit_err (enc kp ivp : Bool) :
    (ctrInit Config.params enc kp ivp s).err = expectedError (.ctrInit enc kp ivp) s := by
  simp only [ctrInit, expectedError, ← keyCheck_getD_ok, apply_ite State.err]
  cases keyCheck Config.params kp s.ctr.keyed s <;> simp

theorem sipInit_err (kp ivp : Bool) : (sipInit kp ivp s).err = expectedError (.sipInit kp ivp) s := by
  simp [sipInit, expectedError, apply_ite State.err]

theorem sipUpdn_err : (sipUpdn s).err = expectedError .sipUpdn s := by
  simp [sipUpdn, expectedError, apply_ite State.err, fits, leavesBuffer_iff]

theorem sipUpd_err : (sipUpd s).err = expectedError .sipUpd s := by
  cases hinit : s.sip.inited <;> simp [sipUpd, expectedError, needsInit, hinit]

theorem sipFin_err : (sipFin s).err = expectedError .sipFin s := by
  obtain ⟨hinit, heq⟩ | ⟨hinit, hout, heq⟩ | ⟨hinit, hout, heq⟩ := sipFin_cases s
  · simp [heq, expectedError, hinit]
  · simp [heq, expectedError, hinit, leavesBuffer_iff, P_BUF_eq, hout]
  · simp [heq, expectedError, hinit, leavesBuffer_iff, P_BUF_eq, hout]

theorem sipFin64_err : (sipFin64 s).err = expectedError .sipFin64 s := by
  obtain ⟨hinit, heq⟩ | ⟨hinit, heq⟩ := sipFin64_cases s <;> simp [heq, hinit, expectedError, needsInit]

end

/-! ## Every command -/

/-- Every command answers a next state with the code that 60_exceptions lists for it. -/
theorem exec_err (i : Instr) (s : State) : ∃ t, exec i s = .next t ∧ t.err = expectedError i s := by
  cases i <;> refine ⟨_, rfl, ?_⟩
  case cfbCfg immA => exact cfbCfg_err s immA
  case cfbInit enc kp ivp => exact cfbInit_err s enc kp ivp
  case ctrInit enc kp ivp => exact ctrInit_err s enc kp ivp
  case cfbProc | ctrProc => exact proc_err _ _ s
  case cfbProcb | ctrProcb => exact procByte_err _ _ s
  case cfbFinal | ctrFinal => exact finalCommand_err _ s
  case sipInit kp ivp => exact sipInit_err s kp ivp
  case sipUpdn => exact sipUpdn_err s
  case sipUpd => exact sipUpd_err s
  case sipFin => exact sipFin_err s
  case sipFin64 => exact sipFin64_err s
  case cfbAadb | cfbAadn | ctrAadb | ctrAadn => exact State.raise_err s .unsupported
  case ctrCfg | sipCfg | cfbReset | ctrReset | sipReset => exact State.finish_err _ _ _
  case cfbName | ctrName | sipName => exact State.finish_err _ _ _
  case cfbUosz | cfbOsz | ctrUosz | ctrOsz | sipMacsz => exact State.finish_err _ _ _

/-- The listed code depends on the registers, the key and the units, not on the accesses still waiting. -/
theorem expectedError_setPort (i : Instr) (s : State) (rest : List Access) :
    expectedError i { s with port := rest } = expectedError i s := by
  cases i <;> rfl

/-- Settles O18: the step runs the word; a command leaves its listed code, an illegal word ERR_ILLEGAL. -/
theorem everyCommandReportsExactlyItsListedError : Obligations.EveryCommandReportsExactlyItsListedError := by
  intro s w rest hp
  rw [step_commandWrite hp]
  obtain ⟨i, hdec, hrun⟩ | ⟨e, hdec, hrun⟩ := runCommand_cases w { s with port := rest }
  · obtain ⟨t, hexec, herr⟩ := exec_err i { s with port := rest }
    refine ⟨t, hrun.trans hexec, fun j hj => ?_, fun e he => ?_⟩
    · obtain rfl := Except.ok.inj (hdec.symm.trans hj)
      exact herr.trans (expectedError_setPort i s rest)
    · cases hdec.symm.trans he
  · refine ⟨_, hrun, fun i hi => ?_, fun _ _ => State.raise_err _ _⟩
    cases hdec.symm.trans hi

end Sys2Proof.Machine
end

section
/-! Decoding and encoding (30_encoding §3): a row's `build` keeps the bits that the row leaves free, and no two rows
have one cell of the opcode map, so the matching row of a word is the only one and its command has that word. -/

namespace Sys2Proof

open Sys2Proof.Claims

/-! ## The matching row -/

/-- No two rows have the same UNIT and OP (30_encoding R95). -/
theorem rows_cells_nodup : (rows.map fun r => (fieldUnit r.pat, fieldOp r.pat)).Nodup := by decide

/-- A word matches at most one row. -/
theorem row_eq_of_matches {r r' : Row} (hr : r ∈ rows) (hr' : r' ∈ rows) {w : Word} (h : w &&& r.mask = r.pat)
    (h' : w &&& r'.mask = r'.pat) : r = r' := by
  obtain ⟨⟨hunit, hop⟩, -⟩ := (row_matches_iff hr w).mp h
  obtain ⟨⟨hunit', hop'⟩, -⟩ := (row_matches_iff hr' w).mp h'
  exact List.inj_on_of_nodup_map rows_cells_nodup hr hr'
    (Prod.ext (hunit.trans hunit'.symm) (hop.trans hop'.symm))

/-- A word that decodes to a command matches the row that built the command. -/
theorem exists_row_of_decode_eq_ok {w : Word} {i : Instr} (h : decode w = .ok i) :
    ∃ r ∈ rows, w &&& r.mask = r.pat ∧ r.build w = i := by
  unfold decode at h
  cases hfind : rows.find? (fun r => w &&& r.mask == r.pat) with
  | none => simp [hfind] at h
  | some r =>
    rw [hfind] at h
    exact ⟨r, List.mem_of_find?_eq_some hfind, by simpa using List.find?_some hfind, Except.ok.inj h⟩

/-- A word that matches a row decodes to the command that the row builds. -/
theorem decode_eq_build {r : Row} (hr : r ∈ rows) {w : Word} (h : w &&& r.mask = r.pat) :
    decode w = .ok (r.build w) := by
  cases hdec : decode w with
  | error e => exact absurd h ((decode_eq_error_iff w).mp ⟨e, hdec⟩ r hr)
  | ok i =>
    obtain ⟨r', hr', h', rfl⟩ := exists_row_of_decode_eq_ok hdec
    rw [row_eq_of_matches hr hr' h h']

/-! ## What a row builds -/

/-- The word of the command that a row builds: OP and UNIT are the row's, and every other field is the word's where the
row leaves it free and 0 where the row fixes it. -/
theorem encode_build (w : Word) : ∀ r ∈ rows,
    encode (r.build w) =
      commandWord (fieldImmB w &&& ~~~ fieldImmB r.mask) (fieldImmA w &&& ~~~ fieldImmA r.mask)
        (fieldIvp w && !fieldIvp r.mask) (fieldKp w && !fieldKp r.mask) (fieldEnc w && !fieldEnc r.mask)
        (fieldUnit r.pat) (fieldOp r.pat) := by
  have hbyte (x : Byte) : x &&& 255#8 = x := BitVec.and_allOnes
  simp [rows, rowsCfb, rowsCtr, rowsSip, encode, plainWord, fieldImmB, fieldImmA, fieldIvp, fieldKp, fieldEnc,
    fieldUnit, fieldOp, hbyte]

/-- What a mask fixes to 0 is 0, so it is no loss to take only what the mask leaves free. -/
theorem imm_and_not_mask {x m : Byte} (h : x &&& m = 0#8) : x &&& ~~~ m = x := by
  ext j hj
  have hbit := congrArg (fun b => b[j]) h
  simp only [BitVec.getElem_and, BitVec.getElem_zero, Bool.and_eq_false_iff] at hbit
  rw [BitVec.getElem_and, BitVec.getElem_not]
  obtain hx | hm := hbit <;> simp [*]

theorem flag_and_not_mask {b m : Bool} (h : (b && m) = false) : (b && !m) = b := by
  cases m <;> simp_all

/-- A word that matches a row is the word of the command that the row builds. -/
theorem encode_build_of_matches {r : Row} (hr : r ∈ rows) {w : Word} (h : w &&& r.mask = r.pat) :
    encode (r.build w) = w := by
  obtain ⟨⟨hunit, hop⟩, hrsv, -⟩ := (row_matches_iff hr w).mp h
  obtain ⟨-, -, -, -, henc0, hkp0, hivp0, ha0, hb0⟩ := rows_fixedFields r hr
  obtain ⟨-, -, henc, hkp, hivp, -, ha, hb⟩ := (word_eq_iff_fields _ _).mp h
  rw [fieldEnc_and, henc0] at henc
  rw [fieldKp_and, hkp0] at hkp
  rw [fieldIvp_and, hivp0] at hivp
  rw [fieldImmA_and, ha0] at ha
  rw [fieldImmB_and, hb0] at hb
  rw [encode_build w r hr, word_eq_iff_fields]
  simp [hunit, hop, hrsv, flag_and_not_mask henc, flag_and_not_mask hkp, flag_and_not_mask hivp, imm_and_not_mask ha,
    imm_and_not_mask hb]

/-- Settles O2: a word that decodes matches the row that built its command. -/
theorem everyLegalWordIsItsCommandsEncoding : Obligations.EveryLegalWordIsItsCommandsEncoding := by
  intro w i hdec
  obtain ⟨r, hr, hmatch, rfl⟩ := exists_row_of_decode_eq_ok hdec
  exact encode_build_of_matches hr hmatch

/-! ## The word of every command -/

/-- A command's word leaves the reserved bits 0 (30_encoding R91). -/
theorem fieldRsv_encode (i : Instr) : fieldRsv (encode i) = 0#7 := by
  cases i <;> exact fieldRsv_commandWord _ _ _ _ _ _ _

/-- A command whose word is in the cell of row `k` and sets no field that the cell constrains is read by that row. -/
theorem decode_encode_of_row {i : Instr} (k : Nat) (hk : k < rows.length)
    (hcell : fieldUnit rows[k].pat = unitOf i ∧ fieldOp rows[k].pat = fieldOp (encode i))
    (hfree : ¬ HasConstrainedField (encode i) (unitOf i).toNat (fieldOp (encode i)).toNat)
    (hbuild : rows[k].build (encode i) = i) : decode (encode i) = .ok i := by
  have hmem : rows[k] ∈ rows := List.getElem_mem hk
  rw [decode_eq_build hmem ((row_matches_iff hmem _).mpr ⟨hcell, fieldRsv_encode i, hfree⟩), hbuild]

/-- Settles O1: the commands with operands are those of rows 0, 1, 12, 22 and 23, which read their fields back; the
word of any other command is one number, and the decoder is run on it. -/
theorem everyCommandDecodesFromItsEncoding : Obligations.EveryCommandDecodesFromItsEncoding := by
  intro i
  cases i with
  | cfbCfg immA =>
    exact decode_encode_of_row 0 (by decide) (by simp [encode, unitOf]; decide)
      (by simp [encode, unitOf, HasConstrainedField]) (by simp [encode, rows, rowsCfb])
  | cfbInit enc kp ivp =>
    exact decode_encode_of_row 1 (by decide) (by simp [encode, unitOf]; decide)
      (by simp [encode, unitOf, HasConstrainedField]) (by simp [encode, rows, rowsCfb])
  | ctrInit enc kp ivp =>
    exact decode_encode_of_row 12 (by decide) (by simp [encode, unitOf]; decide)
      (by simp [encode, unitOf, HasConstrainedField]) (by simp [encode, rows, rowsCfb, rowsCtr])
  | sipCfg immA immB =>
    exact decode_encode_of_row 22 (by decide) (by simp [encode, unitOf]; decide)
      (by simp [encode, unitOf, HasConstrainedField]) (by simp [encode, rows, rowsCfb, rowsCtr, rowsSip])
  | sipInit kp ivp =>
    exact decode_encode_of_row 23 (by decide) (by simp [encode, unitOf]; decide)
      (by simp [encode, unitOf, HasConstrainedField]) (by simp [encode, rows, rowsCfb, rowsCtr, rowsSip])
  | _ => rfl

/-- Settles O4: the decoder is run on the nine words. -/
theorem theSpecsExampleWordsDecode : Obligations.TheSpecsExampleWordsDecode := by
  unfold Obligations.TheSpecsExampleWordsDecode
  decide

end Sys2Proof

namespace Sys2Proof.Machine

open Sys2Proof.Claims

/-! ## From the port to the command (30_encoding R103, 40_engine R120) -/

/-- Settles O5: the write is admitted, and its word is run. -/
theorem aStepRunsTheDecodedCommand : Obligations.AStepRunsTheDecodedCommand := by
  intro s w i rest hp hdec
  rw [step_commandWrite hp, runCommand, hdec]

/-- Settles O6: the statement expands to a write of the command's encoding, which decodes back to the command. -/
theorem anAssembledCommandRunsAsWritten : Obligations.AnAssembledCommandRunsAsWritten := fun s i rest hp =>
  aStepRunsTheDecodedCommand s (encode i) i rest hp (everyCommandDecodesFromItsEncoding i)

end Sys2Proof.Machine
end

section
/-! The two outcomes of a command (40_engine R121), said once for all 31: a command whose listed error is OK
completes, and what it then puts into the state is its effect; any other command raises its listed error. -/

namespace Sys2Proof.Machine

open Sys2Proof.Claims

/-! ## Effects -/

/-- What a command that completes puts into the state: the three units, the bytes it stores from `addr` on, and the two
results. -/
structure Effect where
  cfb : Cfb
  ctr : Ctr
  sip : Sip
  addr : Nat
  bytes : List Byte
  result0 : Word
  result1 : Word

/-- The effect that keeps the three units, stores nothing and returns 0. -/
def Effect.idle (s : State) : Effect where
  cfb := s.cfb
  ctr := s.ctr
  sip := s.sip
  addr := 0
  bytes := []
  result0 := 0#32
  result1 := 0#32

/-- The effect of NAME (40_engine R136). -/
def Effect.name (s : State) (str : List Byte) : Effect :=
  { Effect.idle s with addr := NAME_BASE, bytes := str, result0 := BitVec.ofNat 32 str.length }

/-- The effect of each command, once its checks have passed. The AAD commands never complete (40_engine R137). -/
def effect (i : Instr) (s : State) : Effect :=
  match i with
  | .cfbCfg immA =>
    { Effect.idle s with cfb := { Cfb.powerOn Config.params with sB := immA.toNat, FB := zeros immA.toNat } }
  | .cfbInit enc kp ivp =>
    { Effect.idle s with cfb := s.cfb.initialised Config.params enc kp ivp s.keyOperand s.ivOperand }
  | .cfbProc =>
    let r := engine Config.params (Cfb.hooks Config.params) s.cfb s.inputBytes
    { Effect.idle s with cfb := r.1, addr := OUT_BASE + s.outOff, bytes := r.2, result0 := s.aLen }
  | .cfbProcb =>
    let r := engine Config.params (Cfb.hooks Config.params) s.cfb [s.aByte]
    { Effect.idle s with cfb := r.1, result0 := BitVec.ofNat 32 (leInt r.2) }
  | .cfbFinal => Effect.idle s
  | .cfbReset => { Effect.idle s with cfb := s.cfb.reset Config.params }
  | .cfbName => Effect.name s (s.cfb.name Config.params)
  | .cfbUosz => { Effect.idle s with result0 := s.aLen }
  | .cfbOsz => { Effect.idle s with result0 := s.aLen }
  | .cfbAadb => Effect.idle s
  | .cfbAadn => Effect.idle s
  | .ctrCfg => { Effect.idle s with ctr := Ctr.powerOn Config.params }
  | .ctrInit _ kp _ =>
    { Effect.idle s with
      ctr := s.ctr.initialised Config.params kp s.keyOperand (s.mem.readBytes IV_BASE Config.params.P_B) }
  | .ctrProc =>
    let r := engine Config.params (Ctr.hooks Config.params) s.ctr s.inputBytes
    { Effect.idle s with ctr := r.1, addr := OUT_BASE + s.outOff, bytes := r.2, result0 := s.aLen }
  | .ctrProcb =>
    let r := engine Config.params (Ctr.hooks Config.params) s.ctr [s.aByte]
    { Effect.idle s with ctr := r.1, result0 := BitVec.ofNat 32 (leInt r.2) }
  | .ctrFinal => Effect.idle s
  | .ctrReset => { Effect.idle s with ctr := s.ctr.reset Config.params }
  | .ctrName => Effect.name s (Ctr.name Config.params)
  | .ctrUosz => { Effect.idle s with result0 := s.aLen }
  | .ctrOsz => { Effect.idle s with result0 := s.aLen }
  | .ctrAadb => Effect.idle s
  | .ctrAadn => Effect.idle s
  | .sipCfg immA immB => { Effect.idle s with sip := { Sip.powerOn with c := immA, d := immB } }
  | .sipInit _ _ => { Effect.idle s with sip := s.sip.initialised (s.mem.readBytes KEY_BASE 16) }
  | .sipUpdn => { Effect.idle s with sip := s.inputBytes.foldl Sip.absorb s.sip }
  | .sipUpd => { Effect.idle s with sip := s.sip.absorb s.aByte }
  | .sipFin =>
    { Effect.idle s with
      sip := s.sip.reset, addr := OUT_BASE + s.outOff, bytes := toLe64 s.sip.finalize.1, result0 := 8#32 }
  | .sipReset => { Effect.idle s with sip := s.sip.reset }
  | .sipName => Effect.name s s.sip.name
  | .sipFin64 =>
    { Effect.idle s with
      sip := s.sip.reset, result0 := s.sip.finalize.1.extractLsb' 0 32, result1 := s.sip.finalize.1.extractLsb' 32 32 }
  | .sipMacsz => { Effect.idle s with result0 := 8#32 }

/-- The state after a command with this effect has completed. -/
def State.complete (s : State) (e : Effect) : State :=
  { s with
    err := .ok, result0 := e.result0, result1 := e.result1, mem := s.mem.writeBytes e.addr e.bytes
    cfb := e.cfb, ctr := e.ctr, sip := e.sip }

section
variable (s : State) (e : Effect)

@[simp] theorem State.complete_err : (s.complete e).err = .ok := rfl
@[simp] theorem State.complete_result0 : (s.complete e).result0 = e.result0 := rfl
@[simp] theorem State.complete_result1 : (s.complete e).result1 = e.result1 := rfl
@[simp] theorem State.complete_mem : (s.complete e).mem = s.mem.writeBytes e.addr e.bytes := rfl
@[simp] theorem State.complete_cfb : (s.complete e).cfb = e.cfb := rfl
@[simp] theorem State.complete_ctr : (s.complete e).ctr = e.ctr := rfl
@[simp] theorem State.complete_sip : (s.complete e).sip = e.sip := rfl

end

/-! ## A meaning completes or raises -/

/-- The state `t` is what a command with the effect `e` leaves of `s`: it has completed, or it has raised an error. -/
def CompletesOrRaises (e : Effect) (s t : State) : Prop := t = s.complete e ∨ ∃ code, code ≠ .ok ∧ t = s.raise code

section
variable {s : State} {e : Effect}

theorem CompletesOrRaises.complete : CompletesOrRaises e s (s.complete e) := Or.inl rfl

theorem CompletesOrRaises.raise {code : Err} (h : code ≠ .ok) : CompletesOrRaises e s (s.raise code) :=
  Or.inr ⟨code, h, rfl⟩

/-- A check in front of a meaning that raises an error. -/
theorem CompletesOrRaises.ite {c : Prop} [Decidable c] {code : Err} {t : State} (hcode : code ≠ .ok)
    (ht : CompletesOrRaises e s t) : CompletesOrRaises e s (if c then s.raise code else t) := by
  split
  · exact .raise hcode
  · exact ht

end

section
variable {U : Type} {P : Params} {K : KeystreamUnit U} {s : State} {e : Effect}

theorem proc_completesOrRaises
    (h : ((K.set s (engine P K.hooks (K.get s) s.inputBytes).1).writeMem (OUT_BASE + s.outOff)
      (engine P K.hooks (K.get s) s.inputBytes).2).finish s.aLen 0#32 = s.complete e) :
    CompletesOrRaises e s (proc P K s) :=
  .ite (by decide) (.ite (by decide) (.ite (by decide) (Or.inl h)))

theorem procByte_completesOrRaises
    (h : (K.set s (engine P K.hooks (K.get s) [s.aByte]).1).finish
      (BitVec.ofNat 32 (leInt (engine P K.hooks (K.get s) [s.aByte]).2)) 0#32 = s.complete e) :
    CompletesOrRaises e s (procByte P K s) :=
  .ite (by decide) (Or.inl h)

end

/-- The key checks of an INIT raise an error or let the rest of it complete. -/
theorem CompletesOrRaises.keyCheck {P : Params} {kp keyed : Bool} {s t : State} {e : Effect} (ht : t = s.complete e) :
    CompletesOrRaises e s (match Machine.keyCheck P kp keyed s with | some code => s.raise code | none => t) := by
  cases h : Machine.keyCheck P kp keyed s with
  | none => exact Or.inl ht
  | some code => exact .raise fun hok => keyCheck_ne_ok P kp keyed s (hok ▸ h)

theorem exec_completesOrRaises (i : Instr) (s : State) :
    ∃ t, exec i s = .next t ∧ CompletesOrRaises (effect i s) s t := by
  cases i <;> refine ⟨_, rfl, ?_⟩
  case cfbCfg immA => exact .ite (by decide) .complete
  case cfbInit enc kp ivp => exact .ite (by decide) (.keyCheck rfl)
  case ctrInit enc kp ivp => exact .ite (by decide) (.ite (by decide) (.keyCheck rfl))
  case cfbProc | ctrProc => exact proc_completesOrRaises rfl
  case cfbProcb | ctrProcb => exact procByte_completesOrRaises rfl
  case cfbFinal | ctrFinal => exact .ite (by decide) .complete
  case sipInit kp ivp => exact .ite (by decide) (.ite (by decide) .complete)
  case sipUpdn => exact .ite (by decide) (.ite (by decide) .complete)
  case sipUpd => exact .ite (by decide) .complete
  case sipFin =>
    obtain ⟨-, heq⟩ | ⟨-, -, heq⟩ | ⟨-, -, heq⟩ := sipFin_cases s
    · exact heq ▸ .raise (by decide)
    · exact heq ▸ .raise (by decide)
    · exact Or.inl heq
  case sipFin64 =>
    obtain ⟨-, heq⟩ | ⟨-, heq⟩ := sipFin64_cases s
    · exact heq ▸ .raise (by decide)
    · exact Or.inl heq
  case cfbAadb | cfbAadn | ctrAadb | ctrAadn => exact .raise (by decide)
  case ctrCfg | sipCfg | cfbReset | ctrReset | sipReset => exact .complete
  case cfbName | ctrName | sipName => exact .complete
  case cfbUosz | cfbOsz | ctrUosz | ctrOsz | sipMacsz => exact .complete

/-- Every command completes with its effect if its listed error is OK, and raises its listed error if it is not. -/
theorem exec_eq (i : Instr) (s : State) :
    exec i s =
      .next (if expectedError i s = .ok then s.complete (effect i s) else s.raise (expectedError i s)) := by
  obtain ⟨t, hexec, herr⟩ := exec_err i s
  obtain ⟨t', hexec', hout⟩ := exec_completesOrRaises i s
  obtain rfl := Host.Outcome.next.inj (hexec.symm.trans hexec')
  rw [hexec, ← herr]
  obtain rfl | ⟨code, hcode, rfl⟩ := hout
  · rw [State.complete_err, if_pos rfl]
  · rw [State.raise_err, if_neg hcode]

theorem exec_of_ok {i : Instr} {s : State} (h : expectedError i s = .ok) :
    exec i s = .next (s.complete (effect i s)) := by
  rw [exec_eq, if_pos h]

/-- Every outcome of a command, as the state it answers. -/
theorem exec_cases {i : Instr} {s t : State} (h : exec i s = .next t) :
    (expectedError i s = .ok ∧ t = s.complete (effect i s)) ∨
      (expectedError i s ≠ .ok ∧ t = s.raise (expectedError i s)) := by
  rw [exec_eq] at h
  obtain rfl := Host.Outcome.next.inj h
  by_cases hok : expectedError i s = .ok
  · exact Or.inl ⟨hok, if_pos hok⟩
  · exact Or.inr ⟨hok, if_neg hok⟩

/-! ## Frames over all commands -/

/-- Settles O19: a command whose error code is not OK has raised it. -/
theorem aFailedCommandChangesNothingElse : Obligations.AFailedCommandChangesNothingElse := by
  intro i s
  refine ⟨_, exec_eq i s, fun herr => ?_⟩
  by_cases hok : expectedError i s = .ok
  · rw [if_pos hok] at herr
    exact absurd rfl herr
  · rw [if_neg hok]
    rfl

/-- Settles O21: neither completing nor raising touches these fields. -/
theorem commandsKeepTheArgumentRegisters : Obligations.CommandsKeepTheArgumentRegisters := by
  intro i s t h
  obtain ⟨-, rfl⟩ | ⟨-, rfl⟩ := exec_cases h
  · exact ⟨rfl, rfl, rfl, rfl, rfl, rfl, rfl, rfl⟩
  · exact ⟨rfl, rfl, rfl, rfl, rfl, rfl, rfl, rfl⟩

theorem effect_result1 {i : Instr} (hi : i ≠ .sipFin64) (s : State) : (effect i s).result1 = 0#32 := by
  cases i with
  | sipFin64 => exact absurd rfl hi
  | _ => rfl

/-- Settles O24: only the effect of FIN64 has a second result, and an error leaves both results 0. -/
theorem result1IsNonzeroOnlyAfterFin64 : Obligations.Result1IsNonzeroOnlyAfterFin64 := by
  intro i s t h
  obtain ⟨-, rfl⟩ | ⟨-, rfl⟩ := exec_cases h
  · exact ⟨fun hne => not_imp_comm.mp (fun hi => effect_result1 hi s) hne, fun herr => absurd rfl herr⟩
  · exact ⟨fun hne => absurd rfl hne, fun _ => ⟨rfl, rfl⟩⟩

/-- There are as many input bytes as A_LEN says (40_engine R139). -/
@[simp] theorem State.inputBytes_length (s : State) : s.inputBytes.length = s.len := Memory.readBytes_length _ _ _

/-- The bytes of an effect are those the command stores to (20_memory R72). -/
theorem storesTo_of_mem_effect {i : Instr} {s : State} {a : Nat} (hlo : (effect i s).addr ≤ a)
    (hhi : a < (effect i s).addr + (effect i s).bytes.length) : StoresTo i s a := by
  cases i
  case cfbProc | ctrProc => exact ⟨hlo, hhi.trans_eq (by simp [effect])⟩
  case sipFin => exact ⟨hlo, hhi.trans_eq (by simp [effect])⟩
  case cfbName | ctrName | sipName => exact ⟨hlo, hhi⟩
  all_goals exact absurd hhi (by simp [effect, Effect.idle])

/-- Settles O22: a byte that is none of an effect's bytes reads as before, and an error stores nothing. -/
theorem commandsStoreOnlyToTheirBytes : Obligations.CommandsStoreOnlyToTheirBytes := by
  intro i s t h a ha
  obtain ⟨-, rfl⟩ | ⟨-, rfl⟩ := exec_cases h
  · have hout : ¬ ((effect i s).addr ≤ a ∧ a < (effect i s).addr + (effect i s).bytes.length) :=
      fun ⟨hlo, hhi⟩ => ha (storesTo_of_mem_effect hlo hhi)
    rw [State.complete_mem, Memory.read_writeBytes, if_neg hout]
  · rfl

/-! ## What is kept within a session (70_reset R271) -/

/-- A property that a per-byte step keeps is kept over any input. -/
theorem serial_keeps {U : Type} {f : U → Byte → U × Byte} {p : U → Prop} (hstep : ∀ u x, p u → p (f u x).1) {u : U}
    (hu : p u) (xs : List Byte) : p (serial f u xs).1 := by
  induction xs generalizing u with
  | nil => exact hu
  | cons x xs ih => exact ih (hstep u x hu)

theorem sameCfbSession_trans {u v w : Cfb} (h : SameCfbSession u v) (h' : SameCfbSession v w) : SameCfbSession u w :=
  ⟨h.sB.trans h'.sB, h.enc.trans h'.enc, h.keyed.trans h'.keyed, h.inited.trans h'.inited, h.key.trans h'.key,
    h.IV.trans h'.IV⟩

theorem Cfb.stage_sameSession (u : Cfb) (b : Byte) : SameCfbSession (u.stage b) u := by
  obtain ⟨hsB, henc, hkeyed, hinited, hkey, hIV, -, -⟩ := Cfb.stage_frame u b
  exact ⟨hsB, henc, hkeyed, hinited, hkey, hIV⟩

/-- A byte changes only the keystream and the chaining state of the CFB unit. -/
theorem cfbByteStep_sameSession (P : Params) (u : Cfb) (x : Byte) : SameCfbSession (cfbByteStep P u x).1 u := by
  refine sameCfbSession_trans (Cfb.stage_sameSession _ _) ?_
  split
  · exact ⟨rfl, rfl, rfl, rfl, rfl, rfl⟩
  · exact ⟨rfl, rfl, rfl, rfl, rfl, rfl⟩

theorem cfb_engine_sameSession (P : Params) (u : Cfb) (xs : List Byte) :
    SameCfbSession (engine P (Cfb.hooks P) u xs).1 u := by
  rw [cfb_engine_eq_serial]
  exact serial_keeps (p := fun v => SameCfbSession v u)
    (fun v x hv => sameCfbSession_trans (cfbByteStep_sameSession P v x) hv) ⟨rfl, rfl, rfl, rfl, rfl, rfl⟩ xs

/-- A byte changes only the keystream and the counter of the CTR unit. -/
theorem Ctr.advance_sameSession (P : Params) (u : Ctr) : SameCtrSession (u.advance P) u := by
  by_cases h : u.ko = P.P_B
  · rw [Ctr.advance, Hooks.refresh_of_exhausted (H := Ctr.hooks P) h]
    exact ⟨rfl, rfl, rfl, rfl⟩
  · rw [Ctr.advance, Hooks.refresh_of_inside (H := Ctr.hooks P) h]
    exact ⟨rfl, rfl, rfl, rfl⟩

theorem ctr_engine_sameSession (P : Params) (u : Ctr) (xs : List Byte) :
    SameCtrSession (engine P (Ctr.hooks P) u xs).1 u := by
  rw [ctr_engine_eq_serial]
  refine serial_keeps (p := fun v => SameCtrSession v u) (fun v x hv => ?_) ⟨rfl, rfl, rfl, rfl⟩ xs
  obtain ⟨hkeyed, hinited, hkey, hIV⟩ := Ctr.advance_sameSession P v
  exact ⟨hkeyed.trans hv.keyed, hinited.trans hv.inited, hkey.trans hv.key, hIV.trans hv.IV⟩

/-- Units with one reset are of one session. -/
theorem Sip.sameSession_of_reset_eq {u w : Sip} (h : u.reset = w.reset) : SameSipSession u w :=
  ⟨congrArg (·.c) h, congrArg (·.d) h, congrArg (·.inited) h, congrArg (·.k0) h, congrArg (·.k1) h⟩

/-- Absorbing a byte touches nothing that a reset keeps (43_siphash R214). -/
@[simp] theorem Sip.reset_absorb (u : Sip) (x : Byte) : (u.absorb x).reset = u.reset := by
  simp only [Sip.absorb]
  split
  · exact Sip.reset_fold _ _
  · rfl

theorem Sip.foldl_absorb_sameSession (u : Sip) (bs : List Byte) : SameSipSession (bs.foldl Sip.absorb u) u := by
  refine Sip.sameSession_of_reset_eq ?_
  induction bs generalizing u with
  | nil => rfl
  | cons b bs ih => rw [List.foldl_cons, ih, Sip.reset_absorb]

/-- The effect of a command that is no CFG and no INIT leaves each unit in its session. -/
theorem effect_sameSession {i : Instr} (hi : IsCfgOrInit i = false) (s : State) :
    SameCfbSession (effect i s).cfb s.cfb ∧ SameCtrSession (effect i s).ctr s.ctr ∧
      SameSipSession (effect i s).sip s.sip := by
  have hcfb : SameCfbSession s.cfb s.cfb := ⟨rfl, rfl, rfl, rfl, rfl, rfl⟩
  have hctr : SameCtrSession s.ctr s.ctr := ⟨rfl, rfl, rfl, rfl⟩
  have hsip : SameSipSession s.sip s.sip := ⟨rfl, rfl, rfl, rfl, rfl⟩
  cases i
  case cfbCfg | cfbInit | ctrCfg | ctrInit | sipCfg | sipInit => cases hi
  case cfbProc | cfbProcb => exact ⟨cfb_engine_sameSession _ _ _, hctr, hsip⟩
  case ctrProc | ctrProcb => exact ⟨hcfb, ctr_engine_sameSession _ _ _, hsip⟩
  case sipUpdn => exact ⟨hcfb, hctr, Sip.foldl_absorb_sameSession _ _⟩
  case sipUpd => exact ⟨hcfb, hctr, Sip.foldl_absorb_sameSession _ [_]⟩
  case cfbReset => exact ⟨⟨rfl, rfl, rfl, rfl, rfl, rfl⟩, hctr, hsip⟩
  case ctrReset => exact ⟨hcfb, ⟨rfl, rfl, rfl, rfl⟩, hsip⟩
  case sipReset | sipFin | sipFin64 => exact ⟨hcfb, hctr, ⟨rfl, rfl, rfl, rfl, rfl⟩⟩
  all_goals exact ⟨hcfb, hctr, hsip⟩

/-- Settles O23: completing leaves each unit in its session, and raising leaves the units as they are. -/
theorem onlyCfgAndInitChangeKeysAndConfiguration : Obligations.OnlyCfgAndInitChangeKeysAndConfiguration := by
  intro i s t h hi
  obtain ⟨-, rfl⟩ | ⟨-, rfl⟩ := exec_cases h
  · obtain ⟨hcfb, hctr, hsip⟩ := effect_sameSession hi s
    exact ⟨hcfb.sB, hcfb.enc, hcfb.keyed, hcfb.inited, hcfb.key, hcfb.IV, hctr.keyed, hctr.inited, hctr.key, hctr.IV,
      hsip.c, hsip.d, hsip.inited, hsip.k0, hsip.k1⟩
  · exact ⟨rfl, rfl, rfl, rfl, rfl, rfl, rfl, rfl, rfl, rfl, rfl, rfl, rfl, rfl, rfl⟩

end Sys2Proof.Machine
end

section
/-! Completion: what each command leaves when its checks pass (41_cfb §2, 42_ctr §2, 43_siphash §5). The listed error
of the command is OK, so its effect is what it leaves. -/

namespace Sys2Proof.Machine

open Sys2Proof.Claims

theorem exec_of_err {i : Instr} {s : State} {code : Err} (h : expectedError i s = code) (hcode : code ≠ .ok) :
    exec i s = .next (s.raise code) := by
  rw [exec_eq, h, if_neg hcode]

/-! ## CFG -/

theorem exec_cfbCfg_of_le {immA : Byte} (s : State) (hpos : 1 ≤ immA.toNat) (hle : immA.toNat ≤ blockSize) :
    exec (.cfbCfg immA) s = .next (s.complete (effect (.cfbCfg immA) s)) :=
  exec_of_ok (if_neg (by omega))

/-- Settles O25: the immediate is in the range that CFB.CFG checks, and the other two CFGs check nothing. -/
theorem cfgConstructsItsUnit : Obligations.CfgConstructsItsUnit :=
  ⟨fun _ s hpos hle => exec_cfbCfg_of_le s hpos hle, fun s => exec_of_ok (i := .ctrCfg) (s := s) rfl,
    fun immA immB s => exec_of_ok (i := .sipCfg immA immB) (s := s) rfl⟩

/-- The block size fits into IMM_A (00_scope R7). -/
@[simp] theorem toNat_ofNat_blockSize : (BitVec.ofNat 8 blockSize).toNat = blockSize := by
  have := P_B_le Config.params
  rw [BitVec.toNat_ofNat, blockSize, Nat.mod_eq_of_lt (by omega)]

/-- Settles O16: each CFG constructs its unit with the power-on values, and the two after CFB.CFG keep the units
before. -/
theorem threeCfgsReturnTheUnitsToPowerOn : Obligations.ThreeCfgsReturnTheUnitsToPowerOn := by
  intro s
  refine ⟨_, _, _, exec_cfbCfg_of_le s ?_ ?_, exec_of_ok rfl, exec_of_ok rfl, ?_, rfl, rfl, rfl, rfl⟩
  · rw [toNat_ofNat_blockSize]
    exact P_B_pos _
  · rw [toNat_ofNat_blockSize]
  · show ({ Cfb.powerOn Config.params with
      sB := (BitVec.ofNat 8 blockSize).toNat, FB := zeros (BitVec.ofNat 8 blockSize).toNat } : Cfb) = _
    rw [toNat_ofNat_blockSize]
    rfl

/-! ## INIT -/

theorem keyCheck_eq_none_of_keyAccepted {P : Params} {kp keyed : Bool} {s : State} (h : KeyAccepted P kp keyed s) :
    keyCheck P kp keyed s = none := by
  obtain ⟨hkp, hkeep⟩ := h
  obtain ⟨-, rfl, hbad⟩ | ⟨-, rfl, hbad⟩ | ⟨hnone, -⟩ | ⟨hnone, -⟩ := keyCheck_cases P kp keyed s
  · obtain ⟨hlen, hok⟩ := hkp rfl
    obtain hlong | hrej := hbad
    · exact absurd hlen hlong.not_ge
    · exact absurd hok (ne_true_of_eq_false hrej)
  · exact absurd (hkeep rfl) (ne_true_of_eq_false hbad)
  · exact hnone
  · exact hnone

/-- With a key given or kept, the unit is keyed. -/
theorem keyed_of_keyAccepted {P : Params} {kp keyed : Bool} {s : State} (h : KeyAccepted P kp keyed s) :
    (kp || keyed) = true := by
  cases kp
  · exact h.2 rfl
  · rfl

theorem Cfb.initialised_eq_cfbAfterInit {P : Params} (enc : Bool) {kp : Bool} (ivp : Bool) {s : State}
    (h : KeyAccepted P kp s.cfb.keyed s) :
    s.cfb.initialised P enc kp ivp s.keyOperand s.ivOperand = cfbAfterInit P enc kp ivp s := by
  have hpad : padIv P s.ivOperand =
      List.replicate (P.P_B - s.aIvlen.toNat) 0#8 ++ s.mem.readBytes 0x200 s.aIvlen.toNat := by
    rw [padIv, State.ivOperand, Memory.readBytes_length]
    rfl
  rw [Cfb.initialised, keyed_of_keyAccepted h, hpad]
  rfl

theorem cfbInit_of_keyAccepted {P : Params} (enc : Bool) {kp ivp : Bool} {s : State}
    (hiv : ivp = true → s.aIvlen.toNat ≤ P.P_B) (h : KeyAccepted P kp s.cfb.keyed s) :
    cfbInit P enc kp ivp s = (s.setCfb (cfbAfterInit P enc kp ivp s)).finish 0#32 0#32 := by
  have hfit : ¬ (ivp && decide (P.P_B < s.ivLen)) = true := by simpa using hiv
  rw [cfbInit, if_neg hfit, keyCheck_eq_none_of_keyAccepted h, ← Cfb.initialised_eq_cfbAfterInit enc ivp h]

/-- Settles O26: an IV that fits and an accepted key pass the checks, and the padded IV is the one the statement
writes. -/
theorem cfbInitRekeysAndResets : Obligations.CfbInitRekeysAndResets :=
  ⟨fun enc _ _ _ hiv h => congrArg Host.Outcome.next (cfbInit_of_keyAccepted enc hiv h),
    fun _ enc _ _ _ hiv h => cfbInit_of_keyAccepted enc hiv h⟩

theorem ctrInit_of_keyAccepted {P : Params} (enc : Bool) {kp : Bool} {s : State} (hiv : s.aIvlen.toNat = P.P_B)
    (h : KeyAccepted P kp s.ctr.keyed s) :
    ctrInit P enc kp true s = (s.setCtr (ctrAfterInit P kp s)).finish 0#32 0#32 := by
  rw [ctrInit, if_neg (by decide), if_neg (not_not.mpr hiv), keyCheck_eq_none_of_keyAccepted h]
  simp only [Ctr.initialised, keyed_of_keyAccepted h]
  rfl

/-- Settles O27: an IV of one block and an accepted key pass the checks. -/
theorem ctrInitRekeysAndResets : Obligations.CtrInitRekeysAndResets :=
  ⟨fun enc _ _ hiv h => congrArg Host.Outcome.next (ctrInit_of_keyAccepted enc hiv h),
    fun _ enc _ _ hiv h => ctrInit_of_keyAccepted enc hiv h⟩

/-- Byte `j` of a little-endian 64-bit word is byte `j` of its string. -/
theorem extractLsb'_le64 (bs : List Byte) {j : Nat} (h : j < 8) :
    (le64 bs).extractLsb' (8 * j) 8 = bs.getD j 0#8 := by
  refine BitVec.eq_of_getLsbD_eq fun i hi => ?_
  have hlt : 8 * j + i < 64 := by omega
  rw [BitVec.getLsbD_extractLsb', le64, BitVec.getLsbD_ofNat, leInt_testBit bs j i hi]
  simp [hi, hlt]

theorem Memory.readBytes_getD (m : Memory) (addr : Nat) {n j : Nat} (h : j < n) :
    (m.readBytes addr n).getD j 0#8 = m.read (addr + j) := by
  simp [Memory.readBytes, h]

/-- Settles O28: the key has 16 bytes, and each half is the little-endian word of eight of them. -/
theorem sipInitSplitsTheKeyLittleEndian : Obligations.SipInitSplitsTheKeyLittleEndian := by
  intro s hlen
  have hok : expectedError (.sipInit true false) s = .ok := by simp [expectedError, hlen]
  refine ⟨_, _, fun j hj => ?_, fun j hj => ?_, exec_of_ok hok⟩
  · rw [extractLsb'_le64 _ hj, ← Memory.readBytes_getD s.mem 0x100 (n := 16) (by omega)]
    simp only [List.getD_eq_getElem?_getD, List.getElem?_take_of_lt hj, KEY_BASE_eq]
  · rw [extractLsb'_le64 _ hj, Nat.add_assoc 0x100 8 j, ← Memory.readBytes_getD s.mem 0x100 (n := 16) (by omega)]
    simp [KEY_BASE_eq]

/-! ## PROC and PROCB -/

theorem procError_of_fits {s : State} (hin : s.aInoff.toNat + s.aLen.toNat ≤ 4096)
    (hout : s.aOutoff.toNat + s.aLen.toNat ≤ 4096) : procError true s = .ok := by
  simp [procError, leavesBuffer_iff, P_BUF_eq, hin, hout]

/-- Settles O29: the ranges fit, and the engine is the byte-serial form. -/
theorem cfbProcIsTheByteSerialForm : Obligations.CfbProcIsTheByteSerialForm := by
  intro s hinited hin hout
  have hok : expectedError .cfbProc s = .ok := by rw [expectedError, hinited, procError_of_fits hin hout]
  rw [exec_of_ok hok, effect, cfb_engine_eq_serial]
  rfl

/-- Settles O30: the ranges fit, and the engine is the byte-serial form. -/
theorem ctrProcIsTheByteSerialForm : Obligations.CtrProcIsTheByteSerialForm := by
  intro s hinited hin hout
  have hok : expectedError .ctrProc s = .ok := by rw [expectedError, hinited, procError_of_fits hin hout]
  rw [exec_of_ok hok, effect, ctr_engine_eq_serial]
  rfl

/-- The little-endian value of one byte, in RESULT0. -/
theorem ofNat_leInt_singleton (b : Byte) : BitVec.ofNat 32 (leInt [b]) = b.setWidth 32 := by
  exact BitVec.eq_of_toNat_eq (by simp [leInt])

/-- Settles O31: the byte-serial form of one byte is one step. -/
theorem procbIsOneByteSerialStep : Obligations.ProcbIsOneByteSerialStep := by
  refine ⟨fun s h => ?_, fun s h => ?_, fun s h => exec_of_err ?_ (by decide), fun s h => exec_of_err ?_ (by decide)⟩
  · have hok : expectedError .cfbProcb s = .ok := by rw [expectedError, h]; rfl
    rw [exec_of_ok hok, effect, cfb_engine_eq_serial, serial_cons, serial_nil, ofNat_leInt_singleton]
    rfl
  · have hok : expectedError .ctrProcb s = .ok := by rw [expectedError, h]; rfl
    rw [exec_of_ok hok, effect, ctr_engine_eq_serial, serial_cons, serial_nil, ofNat_leInt_singleton]
    rfl
  · rw [expectedError, h]; rfl
  · rw [expectedError, h]; rfl

end Sys2Proof.Machine
end

section
/-! Names (40_engine R136): the two ways of writing a number in decimal agree, and a NAME stores its string from the
first byte of NAME_BUF on. -/

namespace Sys2Proof.Machine

open Sys2Proof.Claims

/-! ## Decimal numbers -/

/-- The ASCII code of a decimal digit, by its character. -/
theorem digitByte_eq (n : Nat) : digitByte n = BitVec.ofNat 8 (Nat.digitChar (n % 10)).toNat := by
  have hlt : n % 10 < 10 := Nat.mod_lt _ (by decide)
  rw [digitByte]
  generalize n % 10 = d at hlt
  interval_cases d <;> rfl

/-- Both write the last digit in front of those written, and go on with the rest of the number. -/
theorem decDigits_eq (fuel n : Nat) (cs : List Char) :
    decDigits fuel n (cs.map fun ch => BitVec.ofNat 8 ch.toNat) =
      (Nat.toDigitsCore 10 fuel n cs).map fun ch => BitVec.ofNat 8 ch.toNat := by
  induction fuel generalizing n cs with
  | zero => rfl
  | succ fuel ih =>
    rw [decDigits, Nat.toDigitsCore, digitByte_eq, ← List.map_cons (f := fun ch : Char => BitVec.ofNat 8 ch.toNat), ih]
    by_cases h : n < 10
    · rw [if_pos h, if_pos (Nat.div_eq_of_lt h)]
    · rw [if_neg h, if_neg (by omega)]

theorem dec_eq_decimal (n : Nat) : dec n = decimal n := decDigits_eq (n + 1) n []

/-! ## NAME -/

/-- The name the effect of a NAME stores is the one the rules of the three NAMEs give. -/
theorem effect_of_expectedName {i : Instr} {s : State} {str : List Byte} (h : expectedName i s = some str) :
    expectedError i s = .ok ∧ effect i s = Effect.name s str := by
  cases i
  case cfbName =>
    obtain rfl := Option.some.inj h
    rw [← dec_eq_decimal]
    exact ⟨rfl, rfl⟩
  case ctrName =>
    obtain rfl := Option.some.inj h
    exact ⟨rfl, rfl⟩
  case sipName =>
    obtain rfl := Option.some.inj h
    rw [← dec_eq_decimal, ← dec_eq_decimal]
    exact ⟨rfl, rfl⟩
  all_goals cases h

/-- Settles O35: every NAME completes with the effect of storing its name. -/
theorem nameWritesTheUnitsName : Obligations.NameWritesTheUnitsName := by
  intro i s str h
  obtain ⟨hok, heffect⟩ := effect_of_expectedName h
  refine ⟨s.mem.writeBytes NAME_BASE str, ?_, fun j hj => ?_, fun a ha => ?_⟩
  · rw [exec_of_ok hok, heffect]
    rfl
  · rw [Memory.read_writeBytes, if_pos (by rw [NAME_BASE_eq]; omega), NAME_BASE_eq, Nat.add_sub_cancel_left]
  · rw [Memory.read_writeBytes, if_neg (by rwa [NAME_BASE_eq])]

end Sys2Proof.Machine
end

section
/-! The SIP commands (43_siphash §5): the updates absorb their bytes, and the two ends return the MAC. -/

namespace Sys2Proof.Machine

open Sys2Proof.Claims

theorem exec_sipUpd_of_inited {s : State} (h : s.sip.inited = true) :
    exec .sipUpd s = .next (s.complete (effect .sipUpd s)) :=
  exec_of_ok (by rw [expectedError, h]; rfl)

/-- Settles O38: an initialised unit and a range that fits pass the checks. -/
theorem updatesAbsorbTheirBytes : Obligations.UpdatesAbsorbTheirBytes :=
  ⟨fun _ h => exec_sipUpd_of_inited h, fun s h hin => (exec_sipUpdn s).trans (congrArg _ (sipUpdn_of_fits h hin))⟩

/-- Settles O39: the eight bytes of the MAC are a run of bytes in OUT_BUF, and both commands leave the reset unit. -/
theorem finAndFin64ReturnTheMacAndReset : Obligations.FinAndFin64ReturnTheMacAndReset := by
  refine ⟨fun s h hout => ?_, fun s h => ?_⟩
  · have hok : expectedError .sipFin s = .ok := by simp [expectedError, h, leavesBuffer_iff, P_BUF_eq, hout]
    refine ⟨_, exec_of_ok hok, fun j hj => ?_, fun a ha => ?_⟩
    · show (s.mem.writeBytes (OUT_BASE + s.outOff) (toLe64 s.sip.finalize.1)).read _ = _
      rw [Memory.read_writeBytes, toLe64_length, OUT_BASE_eq, if_pos (by simp; omega), State.outOff_eq,
        Nat.add_sub_cancel_left, toLe64_getD _ hj]
    · show (s.mem.writeBytes (OUT_BASE + s.outOff) (toLe64 s.sip.finalize.1)).read _ = _
      rw [Memory.read_writeBytes, toLe64_length, OUT_BASE_eq, if_neg ha]
  · exact exec_of_ok (by rw [expectedError, h]; rfl)

/-! ## One UPD per byte (43_siphash R215) -/

/-- A state transformer that absorbs its byte into an initialised unit absorbs a run of bytes in order. -/
theorem foldl_sip_of_absorbs {f : State → Byte → State}
    (hf : ∀ a b, a.sip.inited = true → (f a b).sip = a.sip.absorb b) (bs : List Byte) {s : State}
    (h : s.sip.inited = true) : (bs.foldl f s).sip = bs.foldl Sip.absorb s.sip := by
  induction bs generalizing s with
  | nil => rfl
  | cons b bs ih =>
    have hinited : (f s b).sip.inited = true := by
      rw [hf s b h, (Sip.sameSession_of_reset_eq (Sip.reset_absorb s.sip b)).inited, h]
    rw [List.foldl_cons, ih hinited, hf s b h, List.foldl_cons]

/-- Settles O54: each UPD absorbs its byte and keeps the unit initialised, so UPD after UPD absorbs what UPDN absorbs.
-/
theorem updnEqualsOneUpdPerByte : Obligations.UpdnEqualsOneUpdPerByte := by
  intro s h hin
  refine ⟨_, (exec_sipUpdn s).trans (congrArg _ (sipUpdn_of_fits h hin)), ?_⟩
  rw [foldl_sip_of_absorbs (fun a b ha => ?_) _ h]
  · rfl
  · rw [exec_sipUpd_of_inited (s := { a with aByte := b }) ha]
    rfl

end Sys2Proof.Machine
end

section
/-! Host accesses (20_memory §1 to §3, 10_state §1): what an access that is admitted does, by the area of its offset. -/

namespace Sys2Proof.Machine

open Sys2Proof.Claims

/-! ## Waiting, and accesses outside the window -/

/-- Settles O14: with no access there is nothing to perform. -/
theorem aWaitingBlockChangesNothing : Obligations.AWaitingBlockChangesNothing := by
  intro s hp
  rw [step, servePort, hp]

theorem admission_outside {off : Nat} (n : Nat) (h : 0x3000 ≤ off) : admission off n = .outside :=
  if_pos h

/-- Settles O8: an access at such an offset is outside, whatever its kind and width. -/
theorem accessesOutsideTheWindowAreRefused : Obligations.AccessesOutsideTheWindowAreRefused := by
  intro s a rest off n hp hoff ha
  rw [step_cons hp]
  obtain rfl | ⟨v, rfl⟩ := ha
  · rw [perform, admission_outside n hoff]
  · rw [perform, admission_outside n hoff]

/-! ## Steps that perform an access that is let through -/

section
variable {s : State} {rest : List Access} {off n : Nat} {v : Word}

/-- The read returns its value and changes nothing else (20_memory R71). -/
theorem step_read (hp : s.port = .read off n :: rest) (ha : admission off n = .admitted) :
    step s = .next { s with port := rest, readLog := s.readLog ++ [s.hostRead Config.params off n] } := by
  rw [step_cons hp, perform, ha]
  rfl

theorem step_write (hp : s.port = .write off n v :: rest) (ha : admission off n = .admitted) (hcmd : off ≠ CMD) :
    step s = .next (({ s with port := rest } : State).hostWrite off n v) := by
  rw [step_cons hp, perform, ha]
  exact if_neg hcmd

/-- The access is let through when its width is one that 20_memory R67 lists. -/
theorem admission_of_widthAdmitted (hoff : off < 0x3000) (hw : widthAdmitted off n = true) :
    admission off n = .admitted := by
  rw [admission_inside n hoff, if_pos hw]

/-- An aligned 32-bit access to the register area is let through. -/
theorem admission_register (hoff : off < 0x100) (halign : off % 4 = 0) : admission off 4 = .admitted :=
  admission_of_widthAdmitted (by omega) ((widthAdmitted_iff off 4).mpr (by rw [if_pos hoff]; exact ⟨rfl, halign⟩))

/-- The width rule above the register area. -/
theorem widthAdmitted_buffer (h1 : 0x100 ≤ off) (hn : n = 1 ∨ (n = 2 ∧ off % 2 = 0) ∨ (n = 4 ∧ off % 4 = 0)) :
    widthAdmitted off n = true := by
  rw [widthAdmitted_iff, if_neg h1.not_gt]
  exact hn

end

/-! ## Registers (10_state R21 to R30) -/

theorem State.hostRead_register (P : Params) (s : State) {off : Nat} (n : Nat) (h : off < 0x100) :
    s.hostRead P off n = s.readReg P off :=
  if_pos (decide_eq_true h)

theorem State.hostWrite_register (s : State) {off : Nat} (n : Nat) (v : Word) (h : off < 0x100) :
    s.hostWrite off n v = s.writeReg off v :=
  if_pos (decide_eq_true h)

/-- The offsets from 0x02C on are reserved and read as 0 (10_state R30). -/
theorem State.readReg_reserved (P : Params) (s : State) {off : Nat} (h : 0x02C ≤ off) : s.readReg P off = 0#32 := by
  have hne {c : Nat} (hc : c < 0x02C) : off ≠ c := by omega
  simp (disch := decide) only [State.readReg, hne, if_false]

/-- Settles O9: the read is let through and returns the register at the offset. -/
theorem registerReadsReturnTheRegister : Obligations.RegisterReadsReturnTheRegister := by
  intro s rest off hp hoff halign
  refine ⟨_, step_read hp (admission_register hoff halign), ?_⟩
  rw [State.hostRead_register _ _ _ hoff]
  refine ⟨?_, ?_, ?_, ?_, ?_, ?_, ?_, ?_, ?_, ?_, ?_, State.readReg_reserved _ _⟩ <;> (rintro rfl; rfl)

/-- A write to a register in one formula: each argument register takes the value at its own offset alone. -/
theorem State.writeReg_eq (s : State) (off : Nat) (v : Word) :
    s.writeReg off v = { s with
      aInoff := if off = 0x010 then v else s.aInoff
      aLen := if off = 0x014 then v else s.aLen
      aOutoff := if off = 0x018 then v else s.aOutoff
      aKeylen := if off = 0x01C then v else s.aKeylen
      aIvlen := if off = 0x020 then v else s.aIvlen
      aByte := if off = 0x024 then v.extractLsb' 0 8 else s.aByte } := by
  by_cases hreg : off ∈ [0x010, 0x014, 0x018, 0x01C, 0x020, 0x024]
  · simp only [List.mem_cons, List.not_mem_nil, or_false] at hreg
    obtain rfl | rfl | rfl | rfl | rfl | rfl := hreg <;> rfl
  · simp only [List.mem_cons, List.not_mem_nil, or_false, not_or] at hreg
    obtain ⟨hin, hlen, hout, hkey, hiv, hbyte⟩ := hreg
    have hignored : s.writeReg off v = s := by
      rw [State.writeReg, if_neg (show off ≠ A_INOFF from hin), if_neg (show off ≠ A_LEN from hlen),
        if_neg (show off ≠ A_OUTOFF from hout), if_neg (show off ≠ A_KEYLEN from hkey),
        if_neg (show off ≠ A_IVLEN from hiv), if_neg (show off ≠ A_BYTE from hbyte)]
    rw [hignored, if_neg hin, if_neg hlen, if_neg hout, if_neg hkey, if_neg hiv, if_neg hbyte]

/-- Settles O11: the write is let through, and it is no CMD write. -/
theorem registerWritesReachOnlyTheArgumentRegisters : Obligations.RegisterWritesReachOnlyTheArgumentRegisters := by
  intro s rest off v hp hoff halign hcmd
  rw [step_write hp (admission_register hoff halign) hcmd, State.hostWrite_register _ _ _ hoff, State.writeReg_eq]

/-! ## Buffers and the reserved range (20_memory R63 to R65) -/

/-- Bit `i` of a little-endian host value is bit `i mod 8` of byte `i / 8`. -/
theorem getLsbD_wordOfBytes (bs : List Byte) {i : Nat} (h : i < 32) :
    (wordOfBytes bs).getLsbD i = (bs.getD (i / 8) 0#8).getLsbD (i % 8) := by
  have hbit := leInt_testBit bs (i / 8) (i % 8) (Nat.mod_lt _ (by decide))
  rw [Nat.div_add_mod] at hbit
  rw [wordOfBytes, BitVec.getLsbD_ofNat, hbit]
  simp [h]

/-- Byte `k` of a host value is byte `k` of its string. -/
theorem extractLsb'_wordOfBytes (bs : List Byte) {k : Nat} (h : k < 4) :
    (wordOfBytes bs).extractLsb' (8 * k) 8 = bs.getD k 0#8 := by
  refine BitVec.eq_of_getLsbD_eq fun i hi => ?_
  have hdiv : (8 * k + i) / 8 = k := by omega
  have hmod : (8 * k + i) % 8 = i := by omega
  rw [BitVec.getLsbD_extractLsb', getLsbD_wordOfBytes bs (by omega), hdiv, hmod]
  simp [hi]

/-- The bits above a string's bytes are 0 (assumption log 4). -/
theorem getLsbD_wordOfBytes_of_le (bs : List Byte) {i : Nat} (h : 8 * bs.length ≤ i) :
    (wordOfBytes bs).getLsbD i = false := by
  by_cases hi : i < 32
  · rw [getLsbD_wordOfBytes bs hi, List.getD_eq_default _ _ (by omega), BitVec.getLsbD_zero]
  · exact BitVec.getLsbD_of_ge _ _ (by omega)

/-- Above the register area, the byte a read finds: 0 in the reserved range, and the buffer's byte elsewhere. -/
theorem State.windowByte_eq (s : State) {x : Nat} (h1 : 0x100 ≤ x) (h2 : x < 0x3000) :
    s.windowByte x = if 0x400 ≤ x ∧ x < 0x1000 then 0#8 else s.mem.read x := by
  have hbuf := isBufferOffset_iff x
  rw [State.windowByte]
  by_cases hres : 0x400 ≤ x ∧ x < 0x1000
  · rw [if_pos hres, if_neg (by rw [hbuf]; omega)]
  · rw [if_neg hres, if_pos (by rw [hbuf]; omega)]

/-- The bytes an admitted width reads lie below a boundary of the areas when the first one does. -/
theorem add_lt_iff_of_widthAdmitted {off n i T : Nat} (hw : widthAdmitted off n = true) (hi : i < n) (hT : T % 4 = 0) :
    off + i < T ↔ off < T := by
  rw [widthAdmitted_iff] at hw
  split_ifs at hw <;> omega

/-- Settles O12: byte `k` of the value is the byte that the read finds at `off + k`, which is in the area of `off`. -/
theorem bufferReadsGatherBytesLittleEndian : Obligations.BufferReadsGatherBytesLittleEndian := by
  intro s rest off n hp h1 h2 hn
  have hw := widthAdmitted_buffer h1 hn
  refine ⟨_, step_read hp (admission_of_widthAdmitted h2 hw), ?_⟩
  rw [State.hostRead, if_neg (by simpa [inRegisterArea] using h1)]
  refine ⟨fun k hk => ?_, fun b hb => getLsbD_wordOfBytes_of_le _ (by simpa using hb)⟩
  have hbelow : ∀ T, T % 4 = 0 → (off + k < T ↔ off < T) := fun T => add_lt_iff_of_widthAdmitted hw hk
  have hlow := hbelow 0x400 rfl
  have hhigh := hbelow 0x1000 rfl
  have hend := hbelow 0x3000 rfl
  rw [extractLsb'_wordOfBytes _ (by omega), List.getD_eq_getElem?_getD, List.getElem?_map, List.getElem?_range hk]
  show s.windowByte (off + k) = _
  rw [State.windowByte_eq s (by omega) (by omega)]
  have hres : (0x400 ≤ off + k ∧ off + k < 0x1000) ↔ (0x400 ≤ off ∧ off < 0x1000) := by omega
  simp only [hres]

/-- Byte `k` of the bytes a write stores is bits `8k+7 : 8k` of the host value (20_memory R65). -/
theorem wordBytes_getD (v : Word) {n k : Nat} (h : k < n) : (wordBytes n v).getD k 0#8 = v.extractLsb' (8 * k) 8 := by
  simp [wordBytes, h]

/-- Settles O13: outside NAME_BUF and the reserved range the write stores a run of bytes, and inside them nothing. -/
theorem bufferWritesScatterBytesLittleEndian : Obligations.BufferWritesScatterBytesLittleEndian := by
  intro s rest off n v hp h1 h2 hn
  have hadm := admission_of_widthAdmitted h2 (widthAdmitted_buffer h1 hn)
  have hcmd : off ≠ CMD := by rw [CMD_eq]; omega
  rw [step_write hp hadm hcmd, State.hostWrite_buffer _ n v h1 h2]
  by_cases harea : off < 0x300 ∨ 0x1000 ≤ off
  · rw [if_pos harea]
    refine ⟨_, rfl, fun a => ?_⟩
    rw [Memory.read_writeBytes, wordBytes_length]
    by_cases hin : off ≤ a ∧ a < off + n
    · rw [if_pos hin, if_pos ⟨harea, hin⟩, wordBytes_getD v (by omega)]
    · rw [if_neg hin, if_neg fun h => hin h.2]
  · rw [if_neg harea]
    exact ⟨s.mem, rfl, fun a => (if_neg fun h => harea h.1).symm⟩

/-! ## Reads show only what the host can see (10_state R38) -/

section
variable {s s' : State} (h : SameToHost s s')
include h

theorem readReg_of_sameToHost (P : Params) (off : Nat) : s.readReg P off = s'.readReg P off := by
  simp only [State.readReg, State.status, State.cfginfo, h.err, h.result0, h.result1, h.aInoff, h.aLen, h.aOutoff,
    h.aKeylen, h.aIvlen, h.aByte, h.cfb_sB, h.cfb_enc, h.cfb_keyed, h.cfb_inited, h.ctr_keyed, h.ctr_inited, h.sip_c,
    h.sip_d, h.sip_inited]

theorem hostRead_of_sameToHost (P : Params) (off n : Nat) : s.hostRead P off n = s'.hostRead P off n := by
  simp only [State.hostRead, State.windowByte, readReg_of_sameToHost h, h.mem]

end

/-- Settles O59: which access faults or is refused depends on the access alone, and the value of the others on what
the host can see. -/
theorem hostReadsShowNoHiddenState : Obligations.HostReadsShowNoHiddenState := by
  intro s s' off n rest rest' h hp hp'
  cases hadm : admission off n with
  | admitted =>
    refine Or.inl ⟨_, step_read hp hadm, ?_⟩
    rw [step_read hp' hadm, hostRead_of_sameToHost h]
  | busError =>
    refine Or.inr (Or.inl ⟨?_, ?_⟩)
    · rw [step_cons hp, perform, hadm]
    · rw [step_cons hp', perform, hadm]
  | outside =>
    refine Or.inr (Or.inr ⟨?_, ?_⟩)
    · rw [step_cons hp, perform, hadm]
    · rw [step_cons hp', perform, hadm]

end Sys2Proof.Machine
end

section
/-! STATUS and CFGINFO (10_state R23, R29): each field at its place, and the two registers at power-on (R42). -/

namespace Sys2Proof.Machine

open Sys2Proof.Claims

/-! ## The bits of the two views -/

/-- Bit `i` of a value with a field placed at bit `lo`. -/
theorem getLsbD_atBit {w : Nat} (v : BitVec w) (lo i : Nat) :
    (atBit v lo).getLsbD i = (decide (i < 32) && (decide (lo ≤ i) && v.getLsbD (i - lo))) := by
  rw [atBit, BitVec.getLsbD_shiftLeft, BitVec.getLsbD_setWidth]
  by_cases h : i < 32
  · by_cases hlo : lo ≤ i
    · simp [h, hlo, show i - lo < 32 by omega]
    · simp [h, hlo, show i < lo by omega]
  · simp [h]

/-- Bit `i` of a value with a flag placed at bit `lo`. -/
theorem getLsbD_atBit_ofBool (b : Bool) {lo i : Nat} (h : i < 32) :
    (atBit (BitVec.ofBool b) lo).getLsbD i = (decide (i = lo) && b) := by
  have hpos : (lo ≤ i ∧ i - lo = 0) ↔ i = lo := by omega
  rw [getLsbD_atBit, BitVec.getLsbD_ofBool, ← Bool.and_assoc (decide (lo ≤ i)), ← Bool.decide_and, decide_eq_true h,
    Bool.true_and, decide_eq_decide.mpr hpos]

section
variable (P : Params) (s : State)

/-- Every bit of STATUS, from the fields placed in it (10_state R23). -/
theorem State.getLsbD_status {i : Nat} (h : i < 32) :
    (s.status P).getLsbD i =
      (s.err.code.getLsbD i || (decide (i = 4) && s.cfb.inited) || (decide (i = 5) && s.ctr.inited) ||
        (decide (i = 6) && s.sip.inited) || (decide (8 ≤ i) && (BitVec.ofNat 8 P.P_B).getLsbD (i - 8)) ||
        (decide (i = 16) && s.cfb.keyed) || (decide (i = 17) && s.ctr.keyed)) := by
  simp only [State.status, BitVec.getLsbD_or, getLsbD_atBit_ofBool _ h, getLsbD_atBit, h, decide_true, Bool.true_and,
    Nat.zero_le, Nat.sub_zero]

/-- Every bit of CFGINFO, from the fields placed in it (10_state R29). -/
theorem State.getLsbD_cfginfo {i : Nat} (h : i < 32) :
    s.cfginfo.getLsbD i =
      ((BitVec.ofNat 8 s.cfb.sB).getLsbD i || (decide (i = 8) && s.cfb.enc) ||
        (decide (16 ≤ i) && s.sip.c.getLsbD (i - 16)) || (decide (24 ≤ i) && s.sip.d.getLsbD (i - 24))) := by
  simp only [State.cfginfo, BitVec.getLsbD_or, getLsbD_atBit_ofBool _ h, getLsbD_atBit, h, decide_true, Bool.true_and,
    Nat.zero_le, Nat.sub_zero]

theorem State.status_err : (s.status P).extractLsb' 0 4 = s.err.code := by
  refine BitVec.eq_of_getLsbD_eq fun i hi => ?_
  rw [BitVec.getLsbD_extractLsb', Nat.zero_add, State.getLsbD_status P s (by omega)]
  simp [hi, show i ≠ 4 ∧ i ≠ 5 ∧ i ≠ 6 ∧ ¬ 8 ≤ i ∧ i ≠ 16 ∧ i ≠ 17 by omega]

theorem State.status_blk : ((s.status P).extractLsb' 8 8).toNat = P.P_B := by
  have hfield : (s.status P).extractLsb' 8 8 = BitVec.ofNat 8 P.P_B := by
    refine BitVec.eq_of_getLsbD_eq fun i hi => ?_
    rw [BitVec.getLsbD_extractLsb', State.getLsbD_status P s (by omega), BitVec.getLsbD_of_ge s.err.code _ (by omega)]
    simp [hi, show 8 + i ≠ 4 ∧ 8 + i ≠ 5 ∧ 8 + i ≠ 6 ∧ 8 + i ≠ 16 ∧ 8 + i ≠ 17 by omega]
  have := P_B_le P
  rw [hfield, BitVec.toNat_ofNat, Nat.mod_eq_of_lt (by omega)]

theorem State.status_reserved : (s.status P).extractLsb' 18 14 = 0#14 := by
  refine BitVec.eq_of_getLsbD_eq fun i hi => ?_
  rw [BitVec.getLsbD_extractLsb', State.getLsbD_status P s (by omega), BitVec.getLsbD_of_ge s.err.code _ (by omega),
    BitVec.getLsbD_of_ge (BitVec.ofNat 8 P.P_B) _ (by omega)]
  simp [show 18 + i ≠ 4 ∧ 18 + i ≠ 5 ∧ 18 + i ≠ 6 ∧ 18 + i ≠ 16 ∧ 18 + i ≠ 17 by omega]

theorem State.cfginfo_seg (h : s.cfb.sB ≤ 255) : (s.cfginfo.extractLsb' 0 8).toNat = s.cfb.sB := by
  have hfield : s.cfginfo.extractLsb' 0 8 = BitVec.ofNat 8 s.cfb.sB := by
    refine BitVec.eq_of_getLsbD_eq fun i hi => ?_
    rw [BitVec.getLsbD_extractLsb', Nat.zero_add, State.getLsbD_cfginfo s (by omega)]
    simp [hi, show i ≠ 8 ∧ ¬ 16 ≤ i ∧ ¬ 24 ≤ i by omega]
  rw [hfield, BitVec.toNat_ofNat, Nat.mod_eq_of_lt (by omega)]

theorem State.cfginfo_reserved : s.cfginfo.extractLsb' 9 7 = 0#7 := by
  refine BitVec.eq_of_getLsbD_eq fun i hi => ?_
  rw [BitVec.getLsbD_extractLsb', State.getLsbD_cfginfo s (by omega), BitVec.getLsbD_of_ge _ (9 + i) (by omega)]
  simp [show 9 + i ≠ 8 ∧ ¬ 16 ≤ 9 + i ∧ ¬ 24 ≤ 9 + i by omega]

theorem State.cfginfo_sip_c : s.cfginfo.extractLsb' 16 8 = s.sip.c := by
  refine BitVec.eq_of_getLsbD_eq fun i hi => ?_
  rw [BitVec.getLsbD_extractLsb', State.getLsbD_cfginfo s (by omega), BitVec.getLsbD_of_ge _ (16 + i) (by omega)]
  simp [hi, show 16 + i ≠ 8 ∧ ¬ 24 ≤ 16 + i by omega]

theorem State.cfginfo_sip_d : s.cfginfo.extractLsb' 24 8 = s.sip.d := by
  refine BitVec.eq_of_getLsbD_eq fun i hi => ?_
  rw [BitVec.getLsbD_extractLsb', State.getLsbD_cfginfo s (by omega), BitVec.getLsbD_of_ge _ (24 + i) (by omega),
    BitVec.getLsbD_of_ge s.sip.c _ (by omega)]
  simp [hi, show 24 + i ≠ 8 by omega]

end

/-- Settles O10: each field of the two views is the one placed at its bits, since the fields do not overlap. -/
theorem statusAndCfginfoShowTheirFields : Obligations.StatusAndCfginfoShowTheirFields := by
  refine ⟨fun P s => ⟨s.status_err P, ?_, ?_, ?_, ?_, s.status_blk P, ?_, ?_, s.status_reserved P⟩,
    fun P s hinv => ⟨s.cfginfo_seg (hinv.sB_le.trans (P_B_le P)), ?_, s.cfginfo_reserved, s.cfginfo_sip_c,
      s.cfginfo_sip_d⟩⟩
  case refine_7 => exact (s.getLsbD_cfginfo (by decide)).trans (by simp)
  all_goals exact (s.getLsbD_status P (by decide)).trans (by simp)

/-- Settles O17: STATUS shows the number of an error code, and the last of them is 6. -/
theorem errorCodesHaveTheirNumbers : Obligations.ErrorCodesHaveTheirNumbers := by
  refine ⟨rfl, rfl, rfl, rfl, rfl, rfl, rfl, fun P s => ?_⟩
  rw [State.status_err]
  cases s.err <;> decide

/-! ## Power-on (10_state R42) -/

/-- A bit above all those of a number is added by setting it. -/
theorem or_two_pow {n k : Nat} (h : n < 2 ^ k) : n ||| 2 ^ k = n + 2 ^ k := by
  have hadd := Nat.two_pow_add_eq_or_of_lt h 1
  rw [Nat.mul_one] at hadd
  rw [Nat.or_comm, ← hadd, Nat.add_comm]

/-- STATUS at power-on shows the block size alone. -/
theorem status_reset : State.reset.status Config.params = BitVec.ofNat 32 (blockSize * 256) := by
  have hle : blockSize ≤ 255 := P_B_le Config.params
  have hblk : State.reset.status Config.params = BitVec.setWidth 32 (BitVec.ofNat 8 blockSize) <<< 8 := by
    simp [State.status, atBit, State.reset, State.powerOn, Err.code, Cfb.powerOn, Ctr.powerOn, Sip.powerOn]
  rw [hblk]
  refine BitVec.eq_of_toNat_eq ?_
  rw [BitVec.toNat_shiftLeft, BitVec.toNat_setWidth, toNat_ofNat_blockSize, BitVec.toNat_ofNat, Nat.shiftLeft_eq,
    Nat.mod_eq_of_lt (a := blockSize) (by omega)]

/-- A byte, and the codes of `c = 2` and `d = 4` above it, as a sum. -/
theorem byte_or_rounds {n : Nat} (h : n ≤ 255) :
    BitVec.setWidth 32 (BitVec.ofNat 8 n) ||| 0x00020000#32 ||| 0x04000000#32 =
      BitVec.ofNat 32 (n + 0x00020000 + 0x04000000) := by
  have hc := or_two_pow (n := n) (k := 17) (by omega)
  have hd := or_two_pow (n := n + 2 ^ 17) (k := 26) (by omega)
  refine BitVec.eq_of_toNat_eq ?_
  simp only [BitVec.toNat_or, BitVec.toNat_setWidth, BitVec.toNat_ofNat]
  rw [Nat.mod_eq_of_lt (show n < 2 ^ 8 by omega), Nat.mod_eq_of_lt (show n < 2 ^ 32 by omega)]
  norm_num at hc hd ⊢
  rw [hc, hd]
  omega

/-- CFGINFO at power-on shows the segment size, which is the block size, and `c = 2`, `d = 4`. -/
theorem cfginfo_reset : State.reset.cfginfo = BitVec.ofNat 32 (blockSize + 0x00020000 + 0x04000000) := by
  have hle : blockSize ≤ 255 := P_B_le Config.params
  rw [← byte_or_rounds hle]
  simp [State.cfginfo, atBit, State.reset, State.powerOn, Cfb.powerOn, Sip.powerOn]

/-- Settles O15: the reset state is written with these values; the two views are sums of fields that do not overlap. -/
theorem powerOnGivesTheSpecifiedValues : Obligations.PowerOnGivesTheSpecifiedValues :=
  ⟨rfl, rfl, rfl, rfl, rfl, rfl, rfl, rfl, rfl, status_reset, cfginfo_reset, rfl, rfl, rfl⟩

end Sys2Proof.Machine
end

section
/-! Engine calls (40_engine R132, R133): successive calls are one call on the joined input, and the runs flushed to the
feedback hook are all the bytes, in order. -/

namespace Sys2Proof.Machine

open Sys2Proof.Claims

/-! ## Chunking (40_engine R133) -/

/-- Successive calls of an engine with a deferrable hook are one call on the joined inputs. -/
theorem Hooks.Deferrable.engineCalls_eq {U : Type} {P : Params} {H : Hooks U} (hH : H.Deferrable)
    (calls : List (List Byte)) (u : U) : engineCalls P H u calls = engine P H u calls.flatten := by
  induction calls generalizing u with
  | nil => rw [engineCalls, List.flatten_nil, hH.engine_eq_serial, serial_nil]
  | cons xs calls ih => rw [engineCalls, ih, List.flatten_cons, hH.engine_append]

/-- Settles O42: both units' feedback hooks are deferrable. -/
theorem chunkingIsInvisible : Obligations.ChunkingIsInvisible :=
  ⟨fun P u calls => (Cfb.hooks_deferrable P).engineCalls_eq calls u,
    fun P u calls => (Ctr.hooks_deferrable P).engineCalls_eq calls u⟩

/-! ## The runs (40_engine R132) -/

section
variable {U : Type} (P : Params) (H : Hooks U)

/-- The loop flushes the runs received before it, then the pending run and the bytes of its input, in order. -/
theorem engineLoop_recordRuns (xs : List Byte) (p : U × List (List Byte × List Byte)) (rx ry : List Byte) :
    let r := engineLoop P (recordRuns H) p rx ry xs
    (r.1.2.flatMap fun run => run.1) = (p.2.flatMap fun run => run.1) ++ rx ++ xs ∧
      (r.1.2.flatMap fun run => run.2) = (p.2.flatMap fun run => run.2) ++ ry ++ r.2 := by
  induction xs generalizing p rx ry with
  | nil => simp [engineLoop_nil, recordRuns]
  | cons x xs ih =>
    by_cases h : (recordRuns H).ko p = P.P_B
    · obtain ⟨hin, hout⟩ := ih _ _ _
      rw [engineLoop_exhausted P (recordRuns H) p rx ry x xs h]
      refine ⟨hin.trans ?_, hout.trans ?_⟩ <;> simp [recordRuns]
    · obtain ⟨hin, hout⟩ := ih _ _ _
      rw [engineLoop_inside P (recordRuns H) p rx ry x xs h]
      refine ⟨hin.trans ?_, hout.trans ?_⟩ <;> simp [recordRuns]

/-- Over successive calls the runs go on from those recorded before. -/
theorem engineCalls_recordRuns (calls : List (List Byte)) (p : U × List (List Byte × List Byte)) :
    let r := engineCalls P (recordRuns H) p calls
    (r.1.2.flatMap fun run => run.1) = (p.2.flatMap fun run => run.1) ++ calls.flatten ∧
      (r.1.2.flatMap fun run => run.2) = (p.2.flatMap fun run => run.2) ++ r.2 := by
  induction calls generalizing p with
  | nil => simp [engineCalls]
  | cons xs calls ih =>
    obtain ⟨hin, hout⟩ := engineLoop_recordRuns P H xs p [] []
    obtain ⟨hins, houts⟩ := ih (engine P (recordRuns H) p xs).1
    refine ⟨hins.trans ?_, houts.trans ?_⟩
    · rw [engine, hin]
      simp
    · rw [engine, hout]
      simp [engine, engineCalls]

end

/-- Settles O43: a loop flushes its pending run before every regeneration and after its last byte, so no byte is lost or
passed twice; the runs of a sequence of calls start from none. -/
theorem theFeedbackHookSeesEveryByteOnce : Obligations.TheFeedbackHookSeesEveryByteOnce := fun _ P H u calls =>
  engineCalls_recordRuns P H calls (u, [])

end Sys2Proof.Machine
end

section
/-! SipHash (43_siphash R218): the four working words of the unit go through the rounds of the function written over
whole words, the unit's whole words are the function's, and its last word is the one finalization folds. -/

namespace Sys2Proof.Machine

open Sys2Proof.Claims

/-- The working words of the unit. -/
def Sip.words (u : Sip) : SipWords := (u.v0, u.v1, u.v2, u.v3)

/-! ## Rounds and folds (43_siphash R207, R210) -/

theorem Sip.words_round (u : Sip) : u.round.words = sipRoundOf u.words := rfl

theorem sipRoundsOf_succ (n : Nat) (v : SipWords) : sipRoundsOf (n + 1) v = sipRoundsOf n (sipRoundOf v) := by
  induction n with
  | zero => rfl
  | succ n ih => rw [sipRoundsOf, ih, ← sipRoundsOf]

theorem Sip.words_rounds (n : Nat) (u : Sip) : (Sip.rounds n u).words = sipRoundsOf n u.words := by
  induction n generalizing u with
  | zero => rfl
  | succ n ih => rw [Sip.rounds, ih, Sip.words_round, sipRoundsOf_succ]

theorem Sip.words_fold (u : Sip) (w : DWord) : (u.fold w).words = sipFoldOf u.c.toNat u.words w := by
  have hrounds := Sip.words_rounds u.c.toNat { u with v3 := u.v3 ^^^ w }
  simp only [Sip.words] at hrounds
  simp only [Sip.words, Sip.fold, sipFoldOf, ← hrounds]

/-- A fold keeps the numbers of rounds. -/
theorem Sip.fold_sameSession (u : Sip) (w : DWord) : SameSipSession (u.fold w) u :=
  Sip.sameSession_of_reset_eq (Sip.reset_fold u w)

/-! ## The whole words of a message -/

/-- After `q` whole words from the reset, the working words are those of the function after its first `q` words. -/
theorem Sip.words_foldl_absorb (u : Sip) (M : List Byte) (q : Nat) (h : 8 * q ≤ M.length) :
    ((M.take (8 * q)).foldl Sip.absorb u.reset).words =
      ((List.range q).map fun i => sipWordOf ((M.drop (8 * i)).take 8)).foldl (sipFoldOf u.c.toNat) u.reset.words := by
  induction q with
  | zero => rfl
  | succ q ih =>
    obtain ⟨hboundary, -⟩ := u.atBoundary_reset.foldl_absorb_words q (M := M.take (8 * q)) (by simp; omega)
    have hc : ((M.take (8 * q)).foldl Sip.absorb u.reset).c = u.c :=
      (Sip.foldl_absorb_sameSession u.reset _).c
    have hsplit : M.take (8 * (q + 1)) = M.take (8 * q) ++ (M.drop (8 * q)).take 8 := by
      rw [Nat.mul_succ, List.take_add]
    rw [hsplit, List.foldl_append, hboundary.foldl_absorb_eight (by simp; omega), List.range_succ, List.map_append,
      List.foldl_append, ← ih (by omega), List.map_singleton, List.foldl_cons, List.foldl_nil, ← hc, ← Sip.words_fold]
    rfl

/-! ## The last word (43_siphash R213) -/

/-- Moving the pending bytes down from the top of `m` gives their little-endian word. -/
theorem pendingWord_ushiftRight {bs : List Byte} (h : bs.length ≤ 8) :
    pendingWord bs >>> (8 * (8 - bs.length)) = sipWordOf bs := by
  refine BitVec.eq_of_getLsbD_eq fun i hi => ?_
  rw [BitVec.getLsbD_ushiftRight, pendingWord, BitVec.getLsbD_shiftLeft, Nat.add_sub_cancel_left]
  by_cases hin : i < 8 * bs.length
  · simp [show 8 * (8 - bs.length) + i < 64 by omega]
  · rw [getLsbD_sipWordOf bs hi, List.getD_eq_default _ _ (by omega)]
    simp

theorem Sip.finalWord_foldl_absorb (u : Sip) (M : List Byte) :
    (M.foldl Sip.absorb u.reset).finalWord =
      sipWordOf (M.drop (8 * (M.length / 8))) ||| (BitVec.ofNat 64 (M.length % 256) <<< 56) := by
  obtain ⟨hwp, hwc, hm⟩ := u.foldl_absorb_reset M
  have hpending : pendingBytes M = M.drop (8 * (M.length / 8)) := by
    rw [pendingBytes, show M.length - M.length % 8 = 8 * (M.length / 8) by omega]
  have hcount : (8 * (BitVec.ofNat 64 (M.length / 8)).toNat + M.length % 8) % 256 = M.length % 256 := by
    rw [BitVec.toNat_ofNat]
    omega
  have hword : (if M.length % 8 = 0 then 0#64 else pendingWord (pendingBytes M) >>> (8 * (8 - M.length % 8))) =
      sipWordOf (pendingBytes M) := by
    split_ifs with h0
    · rw [List.length_eq_zero_iff.mp ((pendingBytes_length M).trans h0)]
      rfl
    · rw [← pendingBytes_length M]
      exact pendingWord_ushiftRight (by rw [pendingBytes_length]; omega)
  rw [Sip.finalWord, hwp, hwc, hm]
  rw [hpending] at hword ⊢
  simp only [hcount, hword]

/-! ## The MAC -/

/-- Finalization folds the last word, marks the end in `v2`, and XORs the words after `d` rounds. -/
theorem Sip.finalize_fst (u : Sip) :
    u.finalize.1 =
      let v := sipFoldOf u.c.toNat u.words u.finalWord
      let r := sipRoundsOf u.d.toNat (v.1, v.2.1, v.2.2.1 ^^^ 0xFF#64, v.2.2.2)
      r.1 ^^^ r.2.1 ^^^ r.2.2.1 ^^^ r.2.2.2 := by
  have hd : (u.fold u.finalWord).d = u.d := (Sip.fold_sameSession u u.finalWord).d
  have hfold := Sip.words_fold u u.finalWord
  have hrounds := Sip.words_rounds u.d.toNat
    { u.fold u.finalWord with v2 := (u.fold u.finalWord).v2 ^^^ 0xFF#64 }
  simp only [Sip.words] at hfold hrounds
  simp only [Sip.finalize, hd, Sip.words, ← hfold, ← hrounds]

/-- Settles O52: the whole words of the message are folded by absorbing, and the last word by finalizing. -/
theorem theMacIsSipHashOfKeyAndMessage : Obligations.TheMacIsSipHashOfKeyAndMessage := by
  intro u M
  obtain ⟨hc, hd, -, -, -⟩ := Sip.foldl_absorb_sameSession u.reset M
  have hlen : 8 * (M.length / 8) ≤ M.length := by omega
  have hwords : (M.foldl Sip.absorb u.reset).words =
      ((M.take (8 * (M.length / 8))).foldl Sip.absorb u.reset).words := by
    obtain ⟨hboundary, -⟩ := u.atBoundary_reset.foldl_absorb_words (M.length / 8)
      (M := M.take (8 * (M.length / 8))) (by simp; omega)
    rw [foldl_absorb_split u.reset M (8 * (M.length / 8)), hboundary.foldl_absorb (by rw [List.length_drop]; omega)]
    rfl
  rw [Sip.finalize_fst, Sip.finalWord_foldl_absorb, hc, hd, hwords, Sip.words_foldl_absorb u M _ hlen, sipHashOf,
    sipMessageWords, List.foldl_append]
  rfl

/-! ## The known answer (95_test_vectors §1) -/

/-- Settles O53: no byte has been absorbed, so the MAC is SipHash of the empty message, which is computed. -/
theorem theSourcesKnownAnswerHolds : Obligations.TheSourcesKnownAnswerHolds := by
  intro s hinited hc hd hk0 hk1 hreset
  have hmac : s.sip.finalize.1 = 0x726fdb47dd0e0e31#64 := by
    rw [hreset]
    refine (theMacIsSipHashOfKeyAndMessage s.sip []).trans ?_
    rw [hc, hd, hk0, hk1]
    decide
  have hok : expectedError .sipFin64 s = .ok := by rw [expectedError, hinited]; rfl
  rw [exec_of_ok hok, effect, hmac, ← hreset]
  rfl

end Sys2Proof.Machine
end

section
/-! The CFB keystream in closed form (41_cfb R168): from its reset the unit is where the ciphertext it has staged
says, and its keystream block is the encryption of the shift register at the last block boundary. -/

namespace Sys2Proof.Machine

open Sys2Proof.Claims

/-! ## Whole segments -/

section
variable {n d : Nat}

/-- The last number of a group of `d` is followed by the first of the next group. -/
theorem div_mod_succ_of_last (h : n % d + 1 = d) : (n + 1) / d = n / d + 1 ∧ (n + 1) % d = 0 := by
  have hsplit := Nat.mod_add_div n d
  exact (Nat.div_mod_unique (by omega)).mpr ⟨by rw [Nat.mul_add]; omega, by omega⟩

/-- Any other number is followed by one of the same group. -/
theorem div_mod_succ_of_not_last (hpos : 0 < d) (h : n % d + 1 ≠ d) :
    (n + 1) / d = n / d ∧ (n + 1) % d = n % d + 1 := by
  have hsplit := Nat.mod_add_div n d
  have hlt := Nat.mod_lt n hpos
  exact (Nat.div_mod_unique hpos).mpr ⟨by omega, by omega⟩

end

/-- How many of the first `n` bytes of ciphertext stand in whole segments. -/
def Cfb.folded (u : Cfb) (n : Nat) : Nat := n / u.sB * u.sB

section
variable (u : Cfb) (n : Nat)

theorem Cfb.folded_add_mod : u.folded n + n % u.sB = n := Nat.div_add_mod' n u.sB

theorem Cfb.folded_le : u.folded n ≤ n := Nat.div_mul_le_self n u.sB

variable {u n}

/-- The last byte of a segment completes it. -/
theorem Cfb.folded_succ_of_last (h : n % u.sB + 1 = u.sB) : u.folded (n + 1) = n + 1 ∧ (n + 1) % u.sB = 0 := by
  obtain ⟨-, hmod⟩ := div_mod_succ_of_last h
  have hsum := u.folded_add_mod (n + 1)
  exact ⟨by omega, hmod⟩

/-- Any other byte leaves its segment open. -/
theorem Cfb.folded_succ_of_not_last (hpos : 0 < u.sB) (h : n % u.sB + 1 ≠ u.sB) :
    u.folded (n + 1) = u.folded n ∧ (n + 1) % u.sB = n % u.sB + 1 := by
  obtain ⟨hdiv, hmod⟩ := div_mod_succ_of_not_last hpos h
  exact ⟨by rw [Cfb.folded, hdiv]; rfl, hmod⟩

end

/-! ## The staged ciphertext (41_cfb R157) -/

/-- The unit `v`, which has staged the ciphertext `C` since the reset of `u`: the whole segments of `C` are folded
into the shift register, and the bytes behind them stand in the stage. -/
structure Cfb.Staged (P : Params) (u : Cfb) (C : List Byte) (v : Cfb) : Prop where
  sB : v.sB = u.sB
  enc : v.enc = u.enc
  key : v.key = u.key
  V : v.V = lastBytes P.P_B (u.IV ++ C.take (u.folded C.length))
  cf : v.cf = C.length % u.sB
  FB_length : v.FB.length = u.sB
  FB : v.FB.take v.cf = C.drop (u.folded C.length)

/-- The last bytes of a string that begins with one block: the string without as many bytes as follow the block. -/
theorem lastBytes_append {n : Nat} {A : List Byte} (h : A.length = n) (B : List Byte) :
    lastBytes n (A ++ B) = (A ++ B).drop B.length := by
  rw [lastBytes, List.length_append, h, Nat.add_sub_cancel_left]

section
variable {P : Params} {u v : Cfb} {C : List Byte}

theorem Cfb.staged_reset (hu : u.Inv P) : Cfb.Staged P u [] (u.reset P) where
  sB := rfl
  enc := rfl
  key := rfl
  V := by simp [lastBytes, hu.IV_length]
  cf := (Nat.zero_mod _).symm
  FB_length := zeros_length _
  FB := by simp

/-- The keystream fields have no part in it. -/
theorem Cfb.Staged.setKeystream (h : Cfb.Staged P u C v) (KB : List Byte) (n : Nat) :
    Cfb.Staged P u C { v with KB := KB, ko := n } :=
  ⟨h.sB, h.enc, h.key, h.V, h.cf, h.FB_length, h.FB⟩

/-- The stage with the next byte set is the bytes before it and that byte. -/
theorem Cfb.Staged.take_set (h : Cfb.Staged P u C v) (hpos : 0 < u.sB) (b : Byte) :
    (v.FB.set v.cf b).take (v.cf + 1) = (C ++ [b]).drop (u.folded C.length) := by
  have hcf : v.cf < v.FB.length := by
    rw [h.cf, h.FB_length]
    exact Nat.mod_lt _ hpos
  rw [List.drop_append_of_le_length (u.folded_le _), ← h.FB, List.take_add_one, List.take_set_of_le (Nat.le_refl _)]
  simp [hcf]

/-- Folding the full stage appends its segment to the ciphertext in the shift register. -/
theorem Cfb.Staged.fold (h : Cfb.Staged P u C v) (hu : u.Inv P) (b : Byte) (hlast : C.length % u.sB + 1 = u.sB) :
    v.V.drop v.sB ++ (v.FB.set v.cf b).take v.sB =
      lastBytes P.P_B (u.IV ++ (C ++ [b]).take (u.folded (C ++ [b]).length)) := by
  have hset := h.take_set hu.sB_pos b
  rw [h.cf, hlast] at hset
  have hsum := u.folded_add_mod C.length
  have hsB := hu.sB_le
  have hIV := hu.IV_length
  have hq : (C.take (u.folded C.length)).length = u.folded C.length := List.length_take_of_le (u.folded_le _)
  have hend : u.folded (C ++ [b]).length = (C ++ [b]).length := by
    rw [List.length_append, List.length_singleton, (Cfb.folded_succ_of_last hlast).1]
  have hfit : (C ++ [b]).length ≤ (u.IV ++ C.take (u.folded C.length)).length := by
    rw [List.length_append, List.length_singleton, List.length_append, hq]
    omega
  calc v.V.drop v.sB ++ (v.FB.set v.cf b).take v.sB
      = (u.IV ++ C.take (u.folded C.length)).drop (C ++ [b]).length ++ (C ++ [b]).drop (u.folded C.length) := by
        rw [h.V, lastBytes_append hIV, hq, List.drop_drop, h.sB, h.cf, hset, List.length_append, List.length_singleton,
          show u.folded C.length + u.sB = C.length + 1 by omega]
    _ = (u.IV ++ (C ++ [b])).drop (C ++ [b]).length := by
        rw [← List.drop_append_of_le_length hfit, ← List.take_append_of_le_length (u.folded_le C.length) (l₂ := [b]),
          List.append_assoc, List.take_append_drop]
    _ = lastBytes P.P_B (u.IV ++ (C ++ [b]).take (u.folded (C ++ [b]).length)) := by
        rw [hend, List.take_length, lastBytes_append hIV]

/-- Staging a byte appends it to the ciphertext: the last byte of a segment folds the stage, any other stays in it. -/
theorem Cfb.Staged.stage (h : Cfb.Staged P u C v) (hu : u.Inv P) (b : Byte) :
    Cfb.Staged P u (C ++ [b]) (v.stage b) := by
  have hset := h.take_set hu.sB_pos b
  have hlen : (C ++ [b]).length = C.length + 1 := List.length_append
  have hfull : v.cf + 1 = v.sB ↔ C.length % u.sB + 1 = u.sB := by rw [h.cf, h.sB]
  rw [Cfb.stage]
  by_cases hlast : C.length % u.sB + 1 = u.sB
  · obtain ⟨hfolded, hmod⟩ := Cfb.folded_succ_of_last hlast
    simp only [if_pos (hfull.mpr hlast)]
    refine ⟨h.sB, h.enc, h.key, h.fold hu b hlast, by rw [hlen, hmod], by rw [zeros_length, h.sB], ?_⟩
    rw [List.take_zero, hlen, hfolded, ← hlen, List.drop_length]
  · obtain ⟨hfolded, hmod⟩ := Cfb.folded_succ_of_not_last hu.sB_pos hlast
    simp only [if_neg (mt hfull.mp hlast)]
    refine ⟨h.sB, h.enc, h.key, ?_, by rw [hlen, hmod, h.cf], by rw [List.length_set, h.FB_length], ?_⟩
    · rw [hlen, hfolded, List.take_append_of_le_length (u.folded_le _)]
      exact h.V
    · rw [hlen, hfolded]
      exact hset

/-! ## The keystream block (41_cfb R155) -/

/-- The blocks drawn before a byte do not depend on the ciphertext from that byte on. -/
theorem cfbBlock_append (P : Params) (u : Cfb) (D : List Byte) {k : Nat} (h : k * P.P_B ≤ C.length) :
    cfbBlock P u (C ++ D) k = cfbBlock P u C k := by
  rw [cfbBlock, cfbBlock, List.take_append_of_le_length ((Nat.div_mul_le_self _ _).trans h)]

/-- The unit `v` can read its next byte: it holds the keystream block of the place where the ciphertext `C` ends. -/
structure Cfb.Readable (P : Params) (u : Cfb) (C : List Byte) (v : Cfb) : Prop where
  staged : Cfb.Staged P u C v
  KB : v.KB = cfbBlock P u C (C.length / P.P_B)
  ko : v.ko = C.length % P.P_B

/-- The unit `v` after the ciphertext `C` from the reset of `u`: at a block boundary it is exhausted, inside a block
it is readable. -/
def Cfb.AfterBytes (P : Params) (u : Cfb) (C : List Byte) (v : Cfb) : Prop :=
  (Cfb.Staged P u C v ∧ C.length % P.P_B = 0 ∧ v.ko = P.P_B) ∨ (C.length % P.P_B ≠ 0 ∧ Cfb.Readable P u C v)

theorem Cfb.afterBytes_reset (hu : u.Inv P) : Cfb.AfterBytes P u [] (u.reset P) :=
  Or.inl ⟨Cfb.staged_reset hu, Nat.zero_mod _, rfl⟩

/-- Regenerating an exhausted unit encrypts the shift register into which the whole segments are folded. -/
theorem Cfb.AfterBytes.refresh (h : Cfb.AfterBytes P u C v) : Cfb.Readable P u C ((Cfb.hooks P).refresh P v) := by
  obtain ⟨hst, hboundary, hko⟩ | ⟨-, hread⟩ := h
  · have hKB : P.E v.key v.V = cfbBlock P u C (C.length / P.P_B) := by
      rw [hst.key, hst.V, cfbBlock, Nat.div_mul_cancel (Nat.dvd_of_mod_eq_zero hboundary)]
      rfl
    rw [Hooks.refresh_of_exhausted (H := Cfb.hooks P) hko]
    exact ⟨hst.setKeystream _ _, hKB, hboundary.symm⟩
  · have hinside : v.ko ≠ P.P_B := hread.ko.trans_ne (Nat.mod_lt _ (P_B_pos P)).ne
    rwa [Hooks.refresh_of_inside (H := Cfb.hooks P) hinside]

/-- Reading a byte and staging its ciphertext leads to a block boundary exactly when it is the last byte of its block.
-/
theorem Cfb.Readable.stage (h : Cfb.Readable P u C v) (hu : u.Inv P) (b : Byte) :
    Cfb.AfterBytes P u (C ++ [b]) (({ v with ko := v.ko + 1 } : Cfb).stage b) := by
  obtain ⟨hst, hKB, hko⟩ := h
  have hst' := (hst.setKeystream v.KB (v.ko + 1)).stage hu b
  obtain ⟨-, -, -, -, -, -, hKB', hko'⟩ := Cfb.stage_frame { v with ko := v.ko + 1 } b
  have hlen : (C ++ [b]).length = C.length + 1 := List.length_append
  by_cases hlast : C.length % P.P_B + 1 = P.P_B
  · obtain ⟨-, hmod⟩ := div_mod_succ_of_last hlast
    exact Or.inl ⟨hst', by rw [hlen, hmod], hko'.trans ((congrArg (· + 1) hko).trans hlast)⟩
  · obtain ⟨hdiv, hmod⟩ := div_mod_succ_of_not_last (P_B_pos P) hlast
    refine Or.inr ⟨by rw [hlen, hmod]; exact Nat.succ_ne_zero _, hst', ?_, ?_⟩
    · rw [hlen, hdiv, cfbBlock_append P u [b] (Nat.div_mul_le_self _ _)]
      exact hKB'.trans hKB
    · rw [hlen, hmod]
      exact hko'.trans (congrArg (· + 1) hko)

end

/-! ## The closed form (41_cfb R168) -/

/-- The ciphertext of a run: the output when encrypting, the input when decrypting (41_cfb R156). -/
def Cfb.ciphertext (u : Cfb) (xs ys : List Byte) : List Byte := if u.enc then ys else xs

theorem Cfb.ciphertext_concat (u : Cfb) (xs ys : List Byte) (x y : Byte) :
    u.ciphertext (xs ++ [x]) (ys ++ [y]) = u.ciphertext xs ys ++ [if u.enc then y else x] := by
  simp only [Cfb.ciphertext]
  split <;> rfl

theorem cfbByteStep_eq (P : Params) (u : Cfb) (x : Byte) :
    cfbByteStep P u x =
      let v := (Cfb.hooks P).refresh P u
      let y := x ^^^ v.KB.getD v.ko 0#8
      (({ v with ko := v.ko + 1 } : Cfb).stage (if v.enc then y else x), y) := rfl

/-- One byte: it is XORed with the next byte of the keystream block, and its ciphertext is staged. -/
theorem Cfb.AfterBytes.byteStep {P : Params} {u v : Cfb} {C : List Byte} (h : Cfb.AfterBytes P u C v) (hu : u.Inv P)
    (x : Byte) :
    let r := cfbByteStep P v x
    Cfb.AfterBytes P u (C ++ [if u.enc then r.2 else x]) r.1 ∧
      r.2 = x ^^^ (cfbBlock P u C (C.length / P.P_B)).getD (C.length % P.P_B) 0#8 := by
  have hread := h.refresh
  rw [cfbByteStep_eq]
  refine ⟨?_, by simp only [hread.KB, hread.ko]⟩
  rw [← hread.staged.enc]
  exact hread.stage hu _

/-- Over any input from its reset, the unit is where its ciphertext says, and each byte is XORed with the byte of its
block. -/
theorem cfb_serial_reset {P : Params} {u : Cfb} (hu : u.Inv P) (xs : List Byte) :
    let r := serial (cfbByteStep P) (u.reset P) xs
    let C := u.ciphertext xs r.2
    C.length = xs.length ∧ r.2.length = xs.length ∧ Cfb.AfterBytes P u C r.1 ∧ ∀ i, i < xs.length →
      r.2.getD i 0#8 = xs.getD i 0#8 ^^^ (cfbBlock P u C (i / P.P_B)).getD (i % P.P_B) 0#8 := by
  induction xs using List.reverseRecOn with
  | nil => simpa [Cfb.ciphertext] using Cfb.afterBytes_reset hu
  | append_singleton xs x ih =>
    obtain ⟨hC, hys, hafter, hbytes⟩ := ih
    obtain ⟨hnext, hy⟩ := hafter.byteStep hu x
    simp only [serial_append, serial_cons, serial_nil, Cfb.ciphertext_concat]
    refine ⟨by simp [hC], by simp [hys], hnext, fun i hi => ?_⟩
    rw [List.length_append, List.length_singleton] at hi
    rw [cfbBlock_append P u _ ((Nat.div_mul_le_self i P.P_B).trans (by omega))]
    by_cases hlt : i < xs.length
    · rw [List.getD_append _ _ _ _ (by omega), List.getD_append _ _ _ _ hlt, hbytes i hlt]
    · obtain rfl : i = xs.length := by omega
      rw [List.getD_append_right _ _ _ _ hys.le, List.getD_append_right _ _ _ _ le_rfl, hys, Nat.sub_self, ← hC]
      exact hy

/-- Settles O47: the bytes of the engine are those of the byte-serial form, whose unit is where its ciphertext says. -/
theorem cfbKeystreamInClosedForm : Obligations.CfbKeystreamInClosedForm := by
  intro P u xs hu
  obtain ⟨-, -, -, hbytes⟩ := cfb_serial_reset hu xs
  rw [cfb_engine_eq_serial]
  exact hbytes

/-! ## Segments that divide the block -/

/-- With segments that divide the block, all ciphertext before a block is in whole segments (41_cfb §3). -/
theorem cfbBlock_of_dvd {P : Params} {u : Cfb} (h : u.sB ∣ P.P_B) (C : List Byte) (k : Nat) :
    cfbBlock P u C k = P.E u.key (lastBytes P.P_B (u.IV ++ C.take (k * P.P_B))) := by
  rw [cfbBlock, Nat.div_mul_cancel (h.mul_left k)]

/-- Ciphertexts that begin alike draw the same block there, from two units of one key and IV whose segments divide the
block. -/
theorem cfbBlock_congr_of_dvd {P : Params} {u u' : Cfb} (hdvd : u.sB ∣ P.P_B) (hdvd' : u'.sB ∣ P.P_B)
    (hkey : u'.key = u.key) (hIV : u'.IV = u.IV) {C C' : List Byte} {n : Nat} (h : C.take n = C'.take n) :
    cfbBlock P u C (n / P.P_B) = cfbBlock P u' C' (n / P.P_B) := by
  have htake (D : List Byte) : D.take (n / P.P_B * P.P_B) = (D.take n).take (n / P.P_B * P.P_B) := by
    rw [List.take_take, min_eq_left (Nat.div_mul_le_self _ _)]
  rw [cfbBlock_of_dvd hdvd, cfbBlock_of_dvd hdvd', hkey, hIV, htake C, htake C', h]

/-- Two byte strings of one length are equal if each byte is the same in both as soon as all bytes before it are. -/
theorem eq_of_getD_eq_of_take_eq {ys zs : List Byte} (hlen : ys.length = zs.length)
    (h : ∀ n, n < ys.length → ys.take n = zs.take n → ys.getD n 0#8 = zs.getD n 0#8) : ys = zs := by
  have htake (n : Nat) (hn : n ≤ ys.length) : ys.take n = zs.take n := by
    induction n with
    | zero => rfl
    | succ n ih =>
      have hbefore := ih (by omega)
      have hbyte := h n hn hbefore
      rw [List.getD_eq_getElem _ _ hn, List.getD_eq_getElem _ _ (hlen ▸ hn)] at hbyte
      rw [List.take_succ_eq_append_getElem hn, List.take_succ_eq_append_getElem (hlen ▸ hn), hbefore, hbyte]
  have hall := htake ys.length le_rfl
  rwa [List.take_length, hlen, List.take_length] at hall

/-- Settles O48: outputs that agree so far are ciphertexts that begin alike, and so draw the same block for the next
byte. -/
theorem dividingSegmentsGiveFullBlockCfb : Obligations.DividingSegmentsGiveFullBlockCfb := by
  intro P u u' xs hu hu' hdvd hfull hkey hIV henc
  refine eq_of_getD_eq_of_take_eq (by simp) fun n hn htake => ?_
  rw [engine_length] at hn
  rw [cfbKeystreamInClosedForm P u xs hu n hn, cfbKeystreamInClosedForm P u' xs hu' n hn]
  have hC : (u.ciphertext xs (engine P (Cfb.hooks P) (u.reset P) xs).2).take n =
      (u'.ciphertext xs (engine P (Cfb.hooks P) (u'.reset P) xs).2).take n := by
    simp only [Cfb.ciphertext, henc]
    split
    · exact htake
    · rfl
  exact congrArg (fun b => xs.getD n 0#8 ^^^ b.getD (n % P.P_B) 0#8)
    (cfbBlock_congr_of_dvd hdvd (hfull ▸ dvd_rfl) hkey hIV hC)

end Sys2Proof.Machine
end

section
/-! KEY_BUF and IV_BUF (10_state R41): no effect but that of an INIT depends on what they hold. -/

namespace Sys2Proof.Machine

open Sys2Proof.Claims

/-- The input bytes stand at 0x1000 and above, outside KEY_BUF and IV_BUF. -/
theorem inputBytes_setMem {s : State} {m : Memory} (h : ∀ a, ¬ (0x100 ≤ a ∧ a < 0x300) → m.read a = s.mem.read a) :
    ({ s with mem := m } : State).inputBytes = s.inputBytes := by
  refine List.map_congr_left fun i _ => h _ ?_
  rw [IN_BASE_eq]
  omega

section
variable {i : Instr} (hi : IsInit i = false) (s : State) {m : Memory}
include hi

/-- The checks of a command that is no INIT read no byte of memory. -/
theorem expectedError_setMem : expectedError i { s with mem := m } = expectedError i s := by
  cases i
  case cfbInit | ctrInit | sipInit => cases hi
  all_goals rfl

/-- The effect of a command that is no INIT depends on no byte of memory but its input. -/
theorem effect_setMem (h : ({ s with mem := m } : State).inputBytes = s.inputBytes) :
    effect i { s with mem := m } = effect i s := by
  cases i
  case cfbInit | ctrInit | sipInit => cases hi
  case cfbProc | ctrProc | sipUpdn => simp only [effect, h]; rfl
  all_goals rfl

end

/-- Settles O60: the command completes with the same effect, or raises the same error. -/
theorem keyAndIvBuffersReachUnitsOnlyThroughInit : Obligations.KeyAndIvBuffersReachUnitsOnlyThroughInit := by
  intro i s m hi h
  refine ⟨_, _, exec_eq i s, exec_eq i { s with mem := m }, ?_⟩
  rw [expectedError_setMem hi, effect_setMem hi s (inputBytes_setMem h)]
  split
  · exact ⟨rfl, rfl, rfl, rfl, rfl, rfl⟩
  · exact ⟨rfl, rfl, rfl, rfl, rfl, rfl⟩

end Sys2Proof.Machine
end

section
/-! The invariant (10_state R33, R35, R37): each unit's operations keep its invariant, so every effect does; and a
command stores only into the buffers. -/

namespace Sys2Proof.Machine

open Sys2Proof.Claims

/-! ## The key of an INIT (41_cfb R152, 42_ctr R182) -/

/-- The key after an INIT whose key checks pass, given or kept, is short enough and accepted. -/
theorem key_of_keyAccepted {P : Params} {kp keyed : Bool} {s : State} {key : List Byte} (h : KeyAccepted P kp keyed s)
    (hlen : key.length ≤ KEY_BUF_SIZE) (hok : keyed = true → P.P_KEY_OK key = true) :
    (if kp then s.keyOperand else key).length ≤ KEY_BUF_SIZE ∧
      P.P_KEY_OK (if kp then s.keyOperand else key) = true := by
  obtain ⟨hgiven, hkept⟩ := h
  cases kp with
  | true =>
    obtain ⟨hshort, haccepted⟩ := hgiven rfl
    exact ⟨(Memory.readBytes_length _ _ _).trans_le hshort, haccepted⟩
  | false => exact ⟨hlen, hok (hkept rfl)⟩

theorem keyAccepted_of_keyError_ok {kp keyed : Bool} {s : State} (h : keyError kp keyed s = .ok) :
    KeyAccepted Config.params kp keyed s := by
  cases kp with
  | true =>
    have hpass : ¬ (256 < s.aKeylen.toNat ∨ Config.params.P_KEY_OK (s.mem.readBytes 0x100 s.aKeylen.toNat) = false) :=
      fun hbad => nomatch (if_pos hbad).symm.trans h
    obtain ⟨hlen, hacc⟩ := not_or.mp hpass
    exact ⟨fun _ => ⟨not_lt.mp hlen, eq_true_of_ne_false hacc⟩, fun hne => nomatch hne⟩
  | false =>
    cases keyed with
    | true => exact ⟨fun hne => (nomatch hne), fun _ => rfl⟩
    | false => cases h

/-! ## The CFB unit -/

section
variable {P : Params} {u : Cfb}

theorem Cfb.powerOn_inv {n : Nat} (hpos : 1 ≤ n) (hle : n ≤ P.P_B) :
    ({ Cfb.powerOn P with sB := n, FB := zeros n } : Cfb).Inv P where
  sB_pos := hpos
  sB_le := hle
  ko_le := le_rfl
  cf_lt := hpos
  FB_length := zeros_length _
  V_length := zeros_length _
  IV_length := zeros_length _
  KB_length := zeros_length _
  key_length := Nat.zero_le _
  inited_keyed := id
  keyed_ok h := nomatch h
  unkeyed_empty _ := rfl

theorem Cfb.Inv.reset (h : u.Inv P) : (u.reset P).Inv P :=
  { h with
    ko_le := le_rfl
    cf_lt := h.sB_pos
    FB_length := zeros_length _
    V_length := h.IV_length }

/-- Staging a byte keeps the cursor of the stage below the segment size and the lengths as they are (41_cfb R157). -/
theorem Cfb.Inv.stage (h : u.Inv P) (b : Byte) : (u.stage b).Inv P := by
  have hFB : (u.FB.set u.cf b).length = u.sB := by rw [List.length_set, h.FB_length]
  rw [Cfb.stage]
  by_cases hfull : u.cf + 1 = u.sB
  · simp only [if_pos hfull]
    refine { h with cf_lt := h.sB_pos, FB_length := zeros_length _, V_length := ?_ }
    rw [List.length_append, List.length_drop, List.length_take, h.V_length, hFB, min_self, Nat.sub_add_cancel h.sB_le]
  · simp only [if_neg hfull]
    exact { h with cf_lt := lt_of_le_of_ne h.cf_lt hfull, FB_length := hFB }

theorem Cfb.Inv.byteStep (h : u.Inv P) (x : Byte) : (cfbByteStep P u x).1.Inv P := by
  rw [cfbByteStep_eq]
  refine Cfb.Inv.stage ?_ _
  by_cases hko : u.ko = P.P_B
  · rw [Hooks.refresh_of_exhausted (H := Cfb.hooks P) hko]
    exact { h with ko_le := P_B_pos P, KB_length := E_length _ _ _ }
  · have hlt : u.ko + 1 ≤ P.P_B := lt_of_le_of_ne h.ko_le hko
    rw [Hooks.refresh_of_inside (H := Cfb.hooks P) hko]
    exact { h with ko_le := hlt }

theorem Cfb.Inv.engine (h : u.Inv P) (xs : List Byte) : (Machine.engine P (Cfb.hooks P) u xs).1.Inv P := by
  rw [cfb_engine_eq_serial]
  exact serial_keeps (fun _ x hv => hv.byteStep x) h xs

/-- INIT keeps the invariant: the key it takes is short enough and accepted, and the IV it takes is padded to a block.
-/
theorem Cfb.Inv.initialised (h : u.Inv P) (enc : Bool) {kp ivp : Bool} {s : State} (hkey : KeyAccepted P kp u.keyed s)
    (hiv : ivp = true → s.aIvlen.toNat ≤ P.P_B) :
    (u.initialised P enc kp ivp s.keyOperand s.ivOperand).Inv P := by
  obtain ⟨hlen, hok⟩ := key_of_keyAccepted hkey h.key_length h.keyed_ok
  have hkeyed := keyed_of_keyAccepted hkey
  have hIV : (if ivp then padIv P s.ivOperand else u.IV).length = P.P_B := by
    split
    case isTrue hgiven => exact padIv_length P _ ((Memory.readBytes_length _ _ _).trans_le (hiv hgiven))
    case isFalse => exact h.IV_length
  exact Cfb.Inv.reset
    { h with
      IV_length := hIV
      key_length := hlen
      inited_keyed := fun _ => hkeyed
      keyed_ok := fun _ => hok
      unkeyed_empty := fun hun => absurd hkeyed (ne_true_of_eq_false hun) }

end

/-! ## The CTR unit -/

section
variable {P : Params} {u : Ctr}

theorem Ctr.powerOn_inv : (Ctr.powerOn P).Inv P where
  ko_le := le_rfl
  IV_length := zeros_length _
  CTR_length := zeros_length _
  KB_length := zeros_length _
  key_length := Nat.zero_le _
  inited_keyed := id
  keyed_ok h := nomatch h
  unkeyed_empty _ := rfl

theorem Ctr.Inv.reset (h : u.Inv P) : (u.reset P).Inv P :=
  { h with ko_le := le_rfl, CTR_length := h.IV_length }

theorem Ctr.Inv.advance (h : u.Inv P) : (u.advance P).Inv P := by
  by_cases hko : u.ko = P.P_B
  · rw [Ctr.advance, Hooks.refresh_of_exhausted (H := Ctr.hooks P) hko]
    exact { h with
      ko_le := P_B_pos P, CTR_length := (inc_length _).trans h.CTR_length, KB_length := E_length _ _ _ }
  · have hlt : u.ko + 1 ≤ P.P_B := lt_of_le_of_ne h.ko_le hko
    rw [Ctr.advance, Hooks.refresh_of_inside (H := Ctr.hooks P) hko]
    exact { h with ko_le := hlt }

theorem Ctr.Inv.engine (h : u.Inv P) (xs : List Byte) : (Machine.engine P (Ctr.hooks P) u xs).1.Inv P := by
  rw [ctr_engine_eq_serial]
  exact serial_keeps (fun _ _ hv => hv.advance) h xs

/-- INIT keeps the invariant: the key it takes is short enough and accepted, and the IV it takes is one block. -/
theorem Ctr.Inv.initialised (h : u.Inv P) {kp : Bool} {s : State} (hkey : KeyAccepted P kp u.keyed s) :
    (u.initialised P kp s.keyOperand (s.mem.readBytes IV_BASE P.P_B)).Inv P := by
  obtain ⟨hlen, hok⟩ := key_of_keyAccepted hkey h.key_length h.keyed_ok
  have hkeyed := keyed_of_keyAccepted hkey
  exact Ctr.Inv.reset
    { h with
      IV_length := Memory.readBytes_length _ _ _
      key_length := hlen
      inited_keyed := fun _ => hkeyed
      keyed_ok := fun _ => hok
      unkeyed_empty := fun hun => absurd hkeyed (ne_true_of_eq_false hun) }

end

/-! ## The SIP unit -/

section
variable {u : Sip}

/-- With no byte pending and a partial word of 0 the invariant holds. -/
theorem Sip.inv_of_atBoundary (h : u.AtBoundary) : u.Inv where
  wp_lt := by rw [h.wp]; decide
  m_low_zero := by rw [h.m]; exact Nat.zero_mod _

/-- The low bits of a word are 0 when its value is a multiple of a power of 2. -/
theorem toNat_mod_two_pow_eq_zero_iff (x : DWord) (k : Nat) :
    x.toNat % 2 ^ k = 0 ↔ ∀ i, i < k → x.getLsbD i = false := by
  have hbit (i : Nat) : (x.toNat % 2 ^ k).testBit i = (decide (i < k) && x.getLsbD i) := Nat.testBit_mod_two_pow _ _ _
  refine ⟨fun h i hi => ?_, fun h => Nat.eq_of_testBit_eq fun i => ?_⟩
  · have hzero := hbit i
    rwa [h, Nat.zero_testBit, decide_eq_true hi, Bool.true_and, eq_comm] at hzero
  · rw [hbit, Nat.zero_testBit]
    by_cases hi : i < k
    · rw [h i hi, Bool.and_false]
    · rw [decide_eq_false hi, Bool.false_and]

/-- A byte goes on top of the pending ones, over the same zeros moved down; the eighth leads to a boundary. -/
theorem Sip.Inv.absorb (h : u.Inv) (x : Byte) : (u.absorb x).Inv := by
  obtain ⟨hwp, hlow⟩ := h
  rw [toNat_mod_two_pow_eq_zero_iff] at hlow
  rw [Sip.absorb]
  by_cases hfull : u.wp + 1 = 8
  · simp only [if_pos hfull]
    exact Sip.inv_of_atBoundary ⟨rfl, rfl⟩
  · simp only [if_neg hfull]
    refine ⟨by show u.wp + 1 < 8; omega, ?_⟩
    rw [toNat_mod_two_pow_eq_zero_iff]
    intro i hi
    simp only at hi
    rw [BitVec.getLsbD_or, BitVec.getLsbD_ushiftRight, BitVec.getLsbD_shiftLeft, hlow _ (by omega)]
    simp [show i < 56 by omega]

theorem Sip.Inv.foldl_absorb (h : u.Inv) (bs : List Byte) : (bs.foldl Sip.absorb u).Inv := by
  induction bs generalizing u with
  | nil => exact h
  | cons b bs ih => exact ih (h.absorb b)

end

/-! ## The effects of commands -/

section
variable {i : Instr} {s : State}

theorem effect_cfb_inv (hok : expectedError i s = .ok) (h : s.cfb.Inv Config.params) :
    (effect i s).cfb.Inv Config.params := by
  cases i
  case cfbCfg immA =>
    have hrange : ¬ (immA.toNat = 0 ∨ blockSize < immA.toNat) := fun hbad => nomatch (if_pos hbad).symm.trans hok
    obtain ⟨hpos, hle⟩ := not_or.mp hrange
    exact Cfb.powerOn_inv (Nat.pos_of_ne_zero hpos) (not_lt.mp hle)
  case cfbInit enc kp ivp =>
    have hiv : ¬ (ivp = true ∧ blockSize < s.aIvlen.toNat) := fun hbad => nomatch (if_pos hbad).symm.trans hok
    have hkey : keyError kp s.cfb.keyed s = .ok := (if_neg hiv).symm.trans hok
    exact h.initialised enc (keyAccepted_of_keyError_ok hkey) fun hivp => not_lt.mp fun hlong => hiv ⟨hivp, hlong⟩
  case cfbProc | cfbProcb => exact h.engine _
  case cfbReset => exact h.reset
  all_goals exact h

theorem effect_ctr_inv (hok : expectedError i s = .ok) (h : s.ctr.Inv Config.params) :
    (effect i s).ctr.Inv Config.params := by
  cases i
  case ctrCfg => exact Ctr.powerOn_inv
  case ctrInit enc kp ivp =>
    have hivp : ¬ ivp = false := fun hbad => nomatch (if_pos hbad).symm.trans hok
    have hlen := (if_neg hivp).symm.trans hok
    have hiv : ¬ s.aIvlen.toNat ≠ blockSize := fun hbad => nomatch (if_pos hbad).symm.trans hlen
    exact h.initialised (keyAccepted_of_keyError_ok ((if_neg hiv).symm.trans hlen))
  case ctrProc | ctrProcb => exact h.engine _
  case ctrReset => exact h.reset
  all_goals exact h

theorem effect_sip_inv (h : s.sip.Inv) : (effect i s).sip.Inv := by
  cases i
  case sipUpdn => exact h.foldl_absorb _
  case sipUpd => exact h.absorb _
  case sipCfg | sipInit | sipFin | sipFin64 | sipReset => exact Sip.inv_of_atBoundary ⟨rfl, rfl⟩
  all_goals exact h

end

/-! ## The bytes commands store (20_memory R62, R72) -/

/-- A number below `10 ^ (k + 1)` has at most `k + 1` digits. -/
theorem decDigits_length_le (fuel : Nat) {n k : Nat} (h : n < 10 ^ (k + 1)) (acc : List Byte) :
    (decDigits fuel n acc).length ≤ acc.length + (k + 1) := by
  induction fuel generalizing n k acc with
  | zero => exact Nat.le_add_right _ _
  | succ fuel ih =>
    rw [decDigits]
    by_cases hn : n < 10
    · rw [if_pos hn, List.length_cons]
      omega
    · rw [if_neg hn]
      cases k with
      | zero => omega
      | succ k =>
        have hrest := ih (n := n / 10) (k := k) (by rw [pow_succ] at h; omega) (digitByte n :: acc)
        rw [List.length_cons] at hrest
        omega

theorem P_CIPHER_NAME_length_le (P : Params) : P.P_CIPHER_NAME.length ≤ 240 := by
  simp [Params.P_CIPHER_NAME]

/-- Every name fits into NAME_BUF: 240 bytes of cipher name, four bytes of mode name, four digits. -/
theorem Cfb.name_length_le {P : Params} {u : Cfb} (h : u.Inv P) : (u.name P).length ≤ 256 := by
  have hname := P_CIPHER_NAME_length_le P
  have hsB := h.sB_le.trans (P_B_le P)
  have hdec : (dec (8 * u.sB)).length ≤ 0 + 4 := decDigits_length_le _ (by omega) []
  simp only [Cfb.name, List.length_append, List.length_cons, List.length_nil]
  omega

theorem Ctr.name_length_le (P : Params) : (Ctr.name P).length ≤ 256 := by
  have hname := P_CIPHER_NAME_length_le P
  simp only [Ctr.name, List.length_append, List.length_cons, List.length_nil]
  omega

theorem Sip.name_length_le (u : Sip) : u.name.length ≤ 256 := by
  have hc : (dec u.c.toNat).length ≤ 0 + 3 := decDigits_length_le _ (by omega) []
  have hd : (dec u.d.toNat).length ≤ 0 + 3 := decDigits_length_le _ (by omega) []
  simp only [Sip.name, List.length_append, List.length_cons, List.length_nil]
  omega

/-- A run of bytes that ends within OUT_BUF is in a buffer. -/
theorem isBufferOffset_out {off n j : Nat} (hfit : off + n ≤ 4096) (hj : j < n) :
    isBufferOffset (OUT_BASE + off + j) = true := by
  rw [isBufferOffset_iff, OUT_BASE_eq]
  omega

theorem isBufferOffset_name {n j : Nat} (hfit : n ≤ 256) (hj : j < n) : isBufferOffset (NAME_BASE + j) = true := by
  rw [isBufferOffset_iff, NAME_BASE_eq]
  omega

/-- PROC that reports no error has checked its output range. -/
theorem out_fits_of_procError_ok {inited : Bool} {s : State} (h : procError inited s = .ok) :
    s.aOutoff.toNat + s.aLen.toNat ≤ 4096 := by
  by_contra hout
  have hleaves : leavesBuffer s.aOutoff.toNat s.aLen.toNat = true := (leavesBuffer_iff _ _).mpr hout
  simp only [procError, hleaves, if_true] at h
  split_ifs at h

/-- Every byte a command stores is in OUT_BUF or NAME_BUF. -/
theorem effect_bytes_in_buffers {i : Instr} {s : State} (hok : expectedError i s = .ok) (h : s.cfb.Inv Config.params)
    {j : Nat} (hj : j < (effect i s).bytes.length) : isBufferOffset ((effect i s).addr + j) = true := by
  cases i
  case cfbProc | ctrProc => exact isBufferOffset_out (out_fits_of_procError_ok hok) (hj.trans_eq (by simp [effect]))
  case sipFin =>
    have hfit : s.aOutoff.toNat + 8 ≤ 4096 := by
      obtain ⟨-, heq⟩ | ⟨-, -, heq⟩ | ⟨-, hfit, -⟩ := sipFin_cases s
      · exact nomatch (congrArg State.err heq).symm.trans ((sipFin_err s).trans hok)
      · exact nomatch (congrArg State.err heq).symm.trans ((sipFin_err s).trans hok)
      · exact hfit
    exact isBufferOffset_out hfit (hj.trans_eq (by simp [effect]))
  case cfbName => exact isBufferOffset_name (Cfb.name_length_le h) hj
  case ctrName => exact isBufferOffset_name (Ctr.name_length_le _) hj
  case sipName => exact isBufferOffset_name (Sip.name_length_le _) hj
  all_goals exact absurd hj (Nat.not_lt_zero j)

/-! ## Every step -/

theorem exec_inv {i : Instr} {s t : State} (hs : s.Inv Config.params) (h : exec i s = .next t) :
    t.Inv Config.params := by
  obtain ⟨hcfb, hctr, hsip, hmem⟩ := hs
  obtain ⟨hok, rfl⟩ | ⟨-, rfl⟩ := exec_cases h
  · exact ⟨effect_cfb_inv hok hcfb, effect_ctr_inv hok hctr, effect_sip_inv hsip,
      Memory.writeBytes_wf _ hmem _ fun _ => effect_bytes_in_buffers hok hcfb⟩
  · exact ⟨hcfb, hctr, hsip, hmem⟩

theorem runCommand_inv {w : Word} {s t : State} (hs : s.Inv Config.params) (h : runCommand w s = .next t) :
    t.Inv Config.params := by
  obtain ⟨i, -, hrun⟩ | ⟨e, -, hrun⟩ := runCommand_cases w s
  · exact exec_inv hs (hrun.symm.trans h)
  · obtain rfl := Host.Outcome.next.inj (hrun.symm.trans h)
    exact ⟨hs.cfb, hs.ctr, hs.sip, hs.mem⟩

/-- A host write keeps the units, and stores only into the buffers. -/
theorem State.Inv.hostWrite {P : Params} {s : State} (hs : s.Inv P) {off n : Nat} (v : Word)
    (hadm : admission off n = .admitted) : (s.hostWrite off n v).Inv P := by
  obtain ⟨hcfb, hctr, hsip, hmem⟩ := hs
  by_cases hreg : off < 0x100
  · rw [State.hostWrite_register _ _ _ hreg, State.writeReg_eq]
    exact ⟨hcfb, hctr, hsip, hmem⟩
  have hwin : off < 0x3000 := by
    by_contra hout
    exact nomatch (admission_outside n (not_lt.mp hout)).symm.trans hadm
  have hw : widthAdmitted off n = true := by
    by_contra hbad
    exact nomatch ((admission_eq_busError_iff n hwin).mpr hbad).symm.trans hadm
  rw [State.hostWrite_buffer s n v (not_lt.mp hreg) hwin]
  split
  case isTrue harea =>
    refine ⟨hcfb, hctr, hsip, Memory.writeBytes_wf _ hmem _ fun i hi => ?_⟩
    rw [wordBytes_length] at hi
    have hlow := add_lt_iff_of_widthAdmitted (T := 0x300) hw hi rfl
    have hend := add_lt_iff_of_widthAdmitted (T := 0x3000) hw hi rfl
    rw [isBufferOffset_iff]
    omega
  case isFalse => exact ⟨hcfb, hctr, hsip, hmem⟩

/-- Settles O57: the units are at power-on, and no byte is listed. -/
theorem resetMeetsTheInvariant : Obligations.ResetMeetsTheInvariant :=
  ⟨Cfb.powerOn_inv (P_B_pos _) le_rfl, Ctr.powerOn_inv, Sip.inv_of_atBoundary ⟨rfl, rfl⟩, Memory.nil_wf⟩

/-- Settles O58: a step waits, reads, runs a command or writes, and each of these keeps the invariant. -/
theorem everyStepKeepsTheInvariant : Obligations.EveryStepKeepsTheInvariant := by
  intro s t hs h
  obtain ⟨-, heq⟩ | ⟨off, n, rest, -, -, heq⟩ | ⟨n, w, rest, -, -, heq⟩ | ⟨off, n, v, rest, -, -, hadm, heq⟩ |
    heq | heq := step_cases s
  · obtain rfl := Host.Outcome.next.inj (heq.symm.trans h)
    exact hs
  · obtain rfl := Host.Outcome.next.inj (heq.symm.trans h)
    exact ⟨hs.cfb, hs.ctr, hs.sip, hs.mem⟩
  · exact runCommand_inv (s := { s with port := rest }) ⟨hs.cfb, hs.ctr, hs.sip, hs.mem⟩ (heq.symm.trans h)
  · obtain rfl := Host.Outcome.next.inj (heq.symm.trans h)
    exact State.Inv.hostWrite (s := { s with port := rest }) ⟨hs.cfb, hs.ctr, hs.sip, hs.mem⟩ v hadm
  · cases heq.symm.trans h
  · cases heq.symm.trans h

end Sys2Proof.Machine
end
